-- ==== Sys2Proof/Word.lean ====
section
/-!
DEFINITION. The word of the YS128's frames: one byte (11 R202). Numbers of more than one byte, check bytes and
codes are in Machine/Bytes.lean and Machine/Codes.lean.
-/
namespace Sys2Proof

/-- One byte of a loop frame or a port frame. -/
abbrev Byte := BitVec 8

end Sys2Proof
end

