-- ==== Sys2Proof/Machine/Bytes.lean ====
section
/-!
DEFINITION. Byte order, check bytes and signed numbers of the frames (11 R202, R203).
-/
namespace Sys2Proof

/-- The low byte of a number. -/
def byteOf (n : Nat) : Byte := BitVec.ofNat 8 n

/-- A number in two bytes, most significant first (R202). -/
def be2 (n : Nat) : List Byte := [byteOf (n / 256), byteOf n]

/-- A number in four bytes, most significant first (R202). -/
def be4 (n : Nat) : List Byte := [byteOf (n / 16777216), byteOf (n / 65536), byteOf (n / 256), byteOf n]

/-- The number that bytes spell, most significant first (R202). -/
def beNat (bytes : List Byte) : Nat := bytes.foldl (fun acc b => acc * 256 + b.toNat) 0

/-- A signed number in two bytes, two's complement (R202). -/
def signed2 (v : Int) : List Byte := be2 (v % 65536).toNat

/-- The signed number of one byte (R202). -/
def signedOf1 (b : Byte) : Int := b.toInt

/-- The signed number of two bytes, most significant first (R202). -/
def signedOf2 (hi lo : Byte) : Int := (hi ++ lo : BitVec 16).toInt

/-- The sum of bytes modulo 256. -/
def byteSum (bytes : List Byte) : Byte := bytes.foldl (· + ·) 0

/-- The check byte: 255 minus the sum of the preceding bytes, modulo 256 (R203). -/
def checkByte (body : List Byte) : Byte := 255 - byteSum body

/-- A frame: a body and its check byte. -/
def withCheck (body : List Byte) : List Byte := body ++ [checkByte body]

/-- A received frame passes when all its bytes sum to 255 modulo 256 (R203). -/
def checkOk (frame : List Byte) : Bool := byteSum frame == 255

/-- A Boolean in bit `i` of a flags byte. -/
def flagBit (i : Nat) (b : Bool) : Nat := if b then 2 ^ i else 0

end Sys2Proof
end

