-- ==== Sys2Proof/Config.lean ====
section
/-!
DEFINITION. What the spec leaves open as a VALUE: bytes of an answer that no rule states. Nothing is known of them.
-/
namespace Sys2Proof.Config

/-- A byte that the part sends where the spec gives no value (log 8): the answer's number in the model's own
counter, and the place in the answer. An uninterpreted constant: no proof can rest on a value of it. -/
opaque freeByte (answer place : Nat) : Byte

end Sys2Proof.Config
end

