-- ==== Sys2Proof/Syntax.lean ====
section
/-!
DEFINITION. The commands the YS128 takes: one constructor per row of spec/opcode_table.json.

A request carries the port it was sent on and the argument bytes of its frame, because the checks of R184 on the
port and on the form of the arguments are part of what the request does. An expiry names the bay whose timer it is.
-/
namespace Sys2Proof

/-- The three master ports (00, The Yard as the Part Sees It; codes in 11 R205). -/
inductive Port where
  | office
  | fuel
  | patrol
  deriving DecidableEq, Repr

/-- The 25 requests of 11 R205, in the alphabetical order that numbers them. -/
inductive Request where
  | attnSet | bayRead | beaconSet | claim | claimRelease | claimRenew | clockSet | defrostCancel | defrostRequest
  | departureSet | doorList | eventFetch | fuelList | loopReset | mirrorSet | modeSet | planCommit | queueRead
  | resume | stageBay | stageClear | stageDrop | stageRow | stageYard | status
  deriving DecidableEq, Repr

/-- The commands of the block, in the order of the table. -/
inductive Instr where
  /-- R10: a reply frame completes within the slot in progress. -/
  | replyReceived (bytes : List Byte)
  /-- R4: the 25 ms slot in progress ends. -/
  | pollSlotEnd
  /-- R120: a second of the timebase ends with the bay's stored door reading OPEN. -/
  | doorOpenSecond (bay : Nat)
  /-- R46: the bay's accrual timer expires. -/
  | accrualExpiry (bay : Nat)
  /-- R82: the bay's MD timer expires. -/
  | defrostTimerExpiry (bay : Nat)
  /-- R85: the bay's drip timer expires. -/
  | dripTimerExpiry (bay : Nat)
  /-- R114: the bay's grace timer expires. -/
  | graceTimerExpiry (bay : Nat)
  /-- R136: the lease end of the claim on the bay is reached. -/
  | leaseExpiry (bay : Nat)
  /-- R163: the minute timer runs out. -/
  | yardClockAdvance
  /-- R166: the SHED line takes the level given. -/
  | shedLineChange (asserted : Bool)
  /-- R166: the filter timer reaches 500 ms. -/
  | shedFilterExpiry
  /-- R170: the shed dwell elapses. -/
  | dwellTimerExpiry
  /-- R171: the restart gap expires. -/
  | restartGapExpiry
  /-- R177, R178: the office silence timer expires. -/
  | silenceTimerExpiry
  /-- R184 check 1: a frame is taken that is incomplete, of impossible length or fails its check. -/
  | badFrame (port : Port)
  /-- R184 check 2: a frame is taken whose request code is not known. -/
  | unknownRequest (port : Port) (code : Byte)
  /-- R183: a transaction ends before one whole byte is shifted in. -/
  | noByteTransaction (port : Port)
  /-- R190. -/
  | attnSet (port : Port) (args : List Byte)
  /-- R191. -/
  | bayRead (port : Port) (args : List Byte)
  /-- R122. -/
  | beaconSet (port : Port) (args : List Byte)
  /-- R129 to R131. -/
  | claim (port : Port) (args : List Byte)
  /-- R135. -/
  | claimRelease (port : Port) (args : List Byte)
  /-- R133. -/
  | claimRenew (port : Port) (args : List Byte)
  /-- R163. -/
  | clockSet (port : Port) (args : List Byte)
  /-- R192, R83. -/
  | defrostCancel (port : Port) (args : List Byte)
  /-- R193, R56. -/
  | defrostRequest (port : Port) (args : List Byte)
  /-- R162. -/
  | departureSet (port : Port) (args : List Byte)
  /-- R124. -/
  | doorList (port : Port) (args : List Byte)
  /-- R194. -/
  | eventFetch (port : Port) (args : List Byte)
  /-- R108. -/
  | fuelList (port : Port) (args : List Byte)
  /-- R195. -/
  | loopReset (port : Port) (args : List Byte)
  /-- R196. -/
  | mirrorSet (port : Port) (args : List Byte)
  /-- R197. -/
  | modeSet (port : Port) (args : List Byte)
  /-- R154. -/
  | planCommit (port : Port) (args : List Byte)
  /-- R198. -/
  | queueRead (port : Port) (args : List Byte)
  /-- R179. -/
  | resume (port : Port) (args : List Byte)
  /-- R151. -/
  | stageBay (port : Port) (args : List Byte)
  /-- R153. -/
  | stageClear (port : Port) (args : List Byte)
  /-- R152. -/
  | stageDrop (port : Port) (args : List Byte)
  /-- R150. -/
  | stageRow (port : Port) (args : List Byte)
  /-- R149. -/
  | stageYard (port : Port) (args : List Byte)
  /-- R199. -/
  | status (port : Port) (args : List Byte)
  /-- R201: the RESET line or power-on. -/
  | fullReset
  /-- R183: a master asserts the port's select line. -/
  | transactionBegin (port : Port)
  deriving DecidableEq, Repr

end Sys2Proof
end

