-- ==== Sys2Proof/Machine/State.lean ====
section
/-!
DEFINITION. Everything the YS128 holds, as plain data, and the state right after a full reset.

INVENTORY.md lists each field with the rule that names it. Times are counts of 25 ms steps of the part's timebase
(log 1); a timer that runs is held as the count at which it runs out.
-/
namespace Sys2Proof.Machine

/-! ## Modes and states -/

/-- 01 R1. -/
inductive LoopMode where
  | run | listen | fallback | halt
  deriving DecidableEq, Repr

/-- 01 R12. -/
inductive Presence where
  | pending | present | lost
  deriving DecidableEq, Repr

/-- The commands a poll can carry, less NONE (11 R204). -/
inductive LoopCmd where
  | startShore | startEngine | stop | beaconOn | beaconOff
  deriving DecidableEq, Repr

/-- 02 R29. -/
inductive UnitClass where
  | a | b
  deriving DecidableEq, Repr

/-- 02 R36. -/
inductive UnitMode where
  | cool | heat | defrost | null | off | alarm
  deriving DecidableEq, Repr

/-- 02 R35. -/
inductive DoorReading where
  | closed | opened | unknown
  deriving DecidableEq, Repr

/-- 02 R39. -/
inductive PowerSource where
  | none | shore | engine
  deriving DecidableEq, Repr

/-- 02 R28: the yard minute of the last valid reply, the clock unset marker, or absent. -/
inductive ReplyTime where
  | absent | clockUnset | minute (m : Nat)
  deriving DecidableEq, Repr

/-- 03 R54. -/
inductive Urgency where
  | none | eligible | due | urgent | forced
  deriving DecidableEq, Repr

/-- 04, table before R65. -/
inductive DefrostState where
  | clear | queued | granted | running | stopping | drip | unknown
  deriving DecidableEq, Repr

/-- 04 R68. -/
inductive DefrostKind where
  | shore | engine
  deriving DecidableEq, Repr

/-- The defrost want that DS asks LC to deliver (01 R15); absent is `none`. -/
inductive DefrostWant where
  | startShore | startEngine | stop
  deriving DecidableEq, Repr

/-- A timer that can be absent, running until a count of the timebase, or run out and kept so: the defrost timer's
"spent" (04 R82) and the dwell timer's "elapsed" (09 R170). -/
inductive Timer where
  | absent | running (deadline : Nat) | spent
  deriving DecidableEq, Repr

/-- 05 R96. -/
inductive FuelState where
  | unknown | ok | low | critical
  deriving DecidableEq, Repr

/-- 06 R112. -/
inductive DoorState where
  | shut | openAttended | openTiming | ajar | switchFault
  deriving DecidableEq, Repr

/-- 09 R168 to R171. -/
inductive ShedState where
  | normal | draining | shed | restart
  deriving DecidableEq, Repr

/-- 09 R176. -/
inductive SilenceState where
  | off | watching | silent
  deriving DecidableEq, Repr

/-- The kinds of event, in the order of 10 R185. -/
inductive EventKind where
  | doorAjar | doorShut | doorSwitchFault
  | fuelLow | fuelCritical | fuelRecovered | fuelUnknown | fuelShort | fuelBlocksDefrost | fillReported
  | defrostStarted | defrostEnded | defrostStartFailed | defrostRefused | defrostOverrun | defrostAbandoned
  | defrostUnplannedStopped | frostForcedWaiting | frostOverdue
  | bayLost | bayFound | unitAlarm | planApplied | officeSilent | shedEntered | shedLeft
  | claimExpired | claimRevoked
  deriving DecidableEq, Repr

/-- The classes of events (10 R185). -/
inductive EventClass where
  | door | fuel | frost | system
  deriving DecidableEq, Repr

/-- 10 R189. -/
inductive ClassCount where
  | one | two | four
  deriving DecidableEq, Repr

/-- The answer codes, in the order of the table of 10. -/
inductive AnswerCode where
  | done | badFrame | unknownRequest | notPermitted | invalid | noSuchBay | held | noClaim | tableFull | portLimit
  | slotsInUse | bayInDefrost | commitPending | wrongMode | wrongState | empty
  deriving DecidableEq, Repr

/-! ## The plan (08) -/

/-- The 24 overridable fields, in the order of 08 R146. `Settings Nat` is a full set (the yard's, or a bay's resolved
settings); `Settings (Option Nat)` is a row profile or a bay's overrides, where a field may be absent. A staged value
is kept as given, whatever its range (R148, R206); on and off are 1 and 0. -/
structure Settings (α : Type) where
  ai : α
  base : α
  doorStep : α
  doorCap : α
  coilThreshold : α
  coilStep : α
  coilCap : α
  eligible : α
  due : α
  urgent : α
  forced : α
  maxIntervals : α
  maxDefrost : α
  dripTime : α
  capacity : α
  burnEstimate : α
  lowLimit : α
  criticalLimit : α
  hysteresis : α
  defrostReserve : α
  departureMargin : α
  doorGrace : α
  autoBeacon : α
  defaultLease : α
  deriving DecidableEq, Repr

/-- The 14 yard-only fields, in the order of 08 R146. -/
structure YardOnly where
  slots : Nat
  margin : Nat
  raisePeriod : Nat
  silenceLimit : Nat
  silenceAction : Nat
  recovery : Nat
  shedDwell : Nat
  restartGap : Nat
  fbSlots : Nat
  fbEligible : Nat
  fbDue : Nat
  fbUrgent : Nat
  fbForced : Nat
  fbRaise : Nat
  deriving DecidableEq, Repr

/-- The yard profile (08 R145). -/
structure Yard where
  settings : Settings Nat
  only : YardOnly
  deriving DecidableEq, Repr

/-- A row profile, or a bay's overrides. -/
abbrev Profile := Settings (Option Nat)

/-- A bay record of a plan (08 R145): the two required fields, the departure, the overrides. -/
structure PlanBay where
  row : Nat
  genset : Nat
  departure : Option Nat
  overrides : Profile
  deriving DecidableEq, Repr

/-- A plan: the yard profile, the row profiles 0 to 7, the bay records by rising address. -/
structure Plan where
  yard : Yard
  rows : List Profile
  bays : List (Nat × PlanBay)
  deriving DecidableEq, Repr

/-- The fallback profile in use (08 R159). -/
structure FallbackProfile where
  slots : Nat
  eligible : Nat
  due : Nat
  urgent : Nat
  forced : Nat
  raisePeriod : Nat
  deriving DecidableEq, Repr

/-! ## A bay's record -/

/-- A command in flight (01 R17, R18). -/
structure Flight where
  cmd : LoopCmd
  num : BitVec 2
  sends : Nat
  deriving DecidableEq, Repr

/-- What LC holds for a bay (01). -/
structure LoopRec where
  presence : Presence
  missCount : Nat
  lostReported : Bool
  baseline : Option (BitVec 2)
  flight : Option Flight
  deriving DecidableEq, Repr

/-- The reading fields BT holds for a bay (02). -/
structure Readings where
  unitClass : Option UnitClass
  unitMode : Option UnitMode
  door : DoorReading
  doorUnknownRun : Nat
  reportedSource : PowerSource
  sourceInUse : PowerSource
  coil : Option Int
  returnAir : Option Int
  fuelLevel : Option Nat
  invalidFuelRun : Nat
  burnRate : Nat
  faultCode : Option Nat
  lastReply : ReplyTime
  stale : Bool
  alarmReported : Bool
  mismatchGen : Nat
  deriving DecidableEq, Repr

/-- What FAU holds for a bay (03). `secondCounted`: the second in progress has been counted by an expiry (R45). -/
structure FrostRec where
  debt : Nat
  urgency : Urgency
  accrualEnd : Nat
  doorSeconds : Nat
  secondCounted : Bool
  intervalCount : Nat
  overdue : Bool
  deriving DecidableEq, Repr

/-- What DS holds for a bay (04). `kept` is the kept entry time and join number. -/
structure DefrostRec where
  state : DefrostState
  kind : Option DefrostKind
  slot : Bool
  want : Option DefrostWant
  timer : Timer
  dripEnd : Option Nat
  kept : Option (Nat × Nat)
  confirmed : Bool
  checkCount : Nat
  startFailures : Nat
  refusal : Bool
  fuelBlock : Bool
  waitingReported : Bool
  deriving DecidableEq, Repr

/-- What FCU holds for a bay (05). -/
structure FuelRec where
  endurance : Option Nat
  state : FuelState
  estimated : Bool
  saturated : Bool
  short : Bool
  deriving DecidableEq, Repr

/-- What DCU holds for a bay (06). `listEntry` is a reading of the seconds timebase; beacon states are `true` for ON,
and the confirmed state `none` for UNKNOWN. -/
structure DoorRec where
  state : DoorState
  graceEnd : Option Nat
  openRun : Nat
  listEntry : Option Nat
  beaconWanted : Bool
  beaconConfirmed : Option Bool
  autoRaised : Bool
  deriving DecidableEq, Repr

/-- The Bay Table's record of one bay of the committed plan: its plan entry, its resolved settings (08 R147), and the
field groups of the blocks. -/
structure Bay where
  entry : PlanBay
  settings : Settings Nat
  loop : LoopRec
  readings : Readings
  frost : FrostRec
  defrost : DefrostRec
  fuel : FuelRec
  door : DoorRec
  deriving DecidableEq, Repr

/-! ## Part-wide records -/

/-- The slot in progress (01 R4): the bay, whether it is a watch slot, the command its poll carries (`none` is NONE)
and the number beside it, and whether its reply has been judged (R10). -/
structure Slot where
  bay : Nat
  watch : Bool
  carried : Option LoopCmd
  num : BitVec 2
  judged : Bool
  deriving DecidableEq, Repr

/-- An entry of the frost queue (04 R65); the entry time is a reading of the seconds timebase. -/
structure QueueEntry where
  bay : Nat
  entryTime : Nat
  join : Nat
  deriving DecidableEq, Repr

/-- A claim record (07), held under its bay. The kind follows from the holder port (R128). The lease end is a reading
of the seconds timebase. -/
structure Claim where
  holder : Port
  leaseMinutes : Nat
  leaseEnd : Nat
  fillStart : Option Nat
  deriving DecidableEq, Repr

/-- The items an event's detail is made of, each with its width and coding (11 R207). -/
inductive Item where
  | minute (m : Nat)
  | need (m : Nat)
  | endurance (e : Option Nat)
  | word (n : Nat)
  | litres (l : Option Nat)
  | level (l : Option Nat)
  | byte (n : Nat)
  deriving DecidableEq, Repr

/-- An event record (10 R186). `time` is `none` for the clock unset marker. The ALARM flag follows the kind. -/
structure Event where
  kind : EventKind
  bay : Nat
  time : Option Nat
  count : Nat
  detail : List Item
  mirrored : Bool
  deriving DecidableEq, Repr

/-- The silence timer running (09 R176): the count at which it runs out, and the limit it was started with. -/
structure SilenceTimer where
  deadline : Nat
  limit : Nat
  deriving DecidableEq, Repr

/-- A mirror rule (10 R188). The class set has bit 0 door, bit 1 fuel, bit 2 frost, bit 3 system. -/
structure MirrorRule where
  source : Port
  first : Nat
  last : Nat
  classes : BitVec 4
  dest : Port
  deriving DecidableEq, Repr

/-- An answer in a port's holder (10 R183). `request` is `none` for BAD_FRAME. -/
structure Answer where
  request : Option Byte
  code : AnswerCode
  number : Byte
  results : List Byte
  deriving DecidableEq, Repr

/-- What a port interface, the Event Router and the Claim Table hold for one port (10, 07 R127). `shiftOut` is the
answer frame that the transaction in progress shifts out. `abandoned`: a full reset took the port out of a transaction
whose end has not come yet, and whose request will not be taken (R201; log 36). -/
structure PortState where
  queue : List Event
  overflow : Bool
  classCount : ClassCount
  mask : BitVec 4
  attn : Bool
  inTransaction : Bool
  abandoned : Bool
  holder : Option Answer
  number : Byte
  shiftOut : List Byte
  claimCount : Nat
  deriving DecidableEq, Repr

/-- One value for each port. -/
structure PerPort (α : Type) where
  office : α
  fuel : α
  patrol : α
  deriving DecidableEq, Repr

/-- The machine. The committed plan's yard and rows stand in `yard` and `rows`, its bay records in the entries of
`bays`. -/
structure State where
  now : Nat
  pending : List Instr
  freeCount : Nat
  mode : LoopMode
  nextMain : Option Nat
  slot : Option Slot
  roundEnding : Bool
  watch : List Nat
  cursor : Option Nat
  yard : Yard
  rows : List Profile
  bays : List (Nat × Bay)
  staged : Plan
  commitPending : Bool
  marked : List Nat
  generation : Nat
  fallback : FallbackProfile
  clock : Option Nat
  minuteEnd : Option Nat
  queue : List QueueEntry
  lastJoin : Nat
  slotHolders : Nat
  raiseCounter : Nat
  shed : ShedState
  shedLine : Bool
  filtered : Bool
  filterEnd : Option Nat
  releaseSeen : Bool
  dwell : Timer
  gapEnd : Option Nat
  silence : SilenceState
  silenceTimer : Option SilenceTimer
  savedMode : Option LoopMode
  claims : List (Nat × Claim)
  mirrors : List (Option MirrorRule)
  ports : PerPort PortState
  deriving DecidableEq, Repr

/-- No command of the YS128 faults: every command has an effect or an answer in the spec. -/
inductive Fault where
  deriving DecidableEq, Repr

/-- Why a command has no meaning. -/
inductive Refusal where
  /-- Raised by an arm of `exec` for a command not modelled yet; safe, since nothing is claimed of it. No arm raises it. -/
  | notModelled (mnemonic : String)
  deriving DecidableEq, Repr

/-! ## Full reset -/

/-- The yard profile after a full reset (08 R146). -/
def Yard.reset : Yard where
  settings :=
    { ai := 10, base := 2, doorStep := 30, doorCap := 8, coilThreshold := 60, coilStep := 20, coilCap := 6,
      eligible := 24, due := 40, urgent := 64, forced := 96, maxIntervals := 0, maxDefrost := 30, dripTime := 5,
      capacity := 200, burnEstimate := 30, lowLimit := 480, criticalLimit := 120, hysteresis := 60,
      defrostReserve := 240, departureMargin := 90, doorGrace := 180, autoBeacon := 1, defaultLease := 45 }
  only :=
    { slots := 2, margin := 1, raisePeriod := 8, silenceLimit := 0, silenceAction := 0, recovery := 0,
      shedDwell := 60, restartGap := 10, fbSlots := 1, fbEligible := 32, fbDue := 56, fbUrgent := 80,
      fbForced := 112, fbRaise := 0 }

/-- A profile with every field absent (08 R145). -/
def Profile.empty : Profile :=
  { ai := none, base := none, doorStep := none, doorCap := none, coilThreshold := none, coilStep := none,
    coilCap := none, eligible := none, due := none, urgent := none, forced := none, maxIntervals := none,
    maxDefrost := none, dripTime := none, capacity := none, burnEstimate := none, lowLimit := none,
    criticalLimit := none, hysteresis := none, defrostReserve := none, departureMargin := none, doorGrace := none,
    autoBeacon := none, defaultLease := none }

/-- The plan after a full reset (08 R165). -/
def Plan.reset : Plan where
  yard := Yard.reset
  rows := List.replicate 8 Profile.empty
  bays := []

/-- A port after a full reset (10 R201, 07 R144). -/
def PortState.reset : PortState :=
  { queue := [], overflow := false, classCount := .one, mask := 0, attn := false, inTransaction := false,
    abandoned := false, holder := none, number := 0, shiftOut := [], claimCount := 0 }

/-- The machine right after a full reset with the SHED line released (01 R27, 04 R91, 07 R144, 08 R165, 09 R167, R175,
R182, 10 R201). DESIGN CHOICE: `now` and `lastJoin` are 0 and the line is released (logs 5, 6, 7). -/
def State.reset : State where
  now := 0
  pending := []
  freeCount := 0
  mode := .halt
  nextMain := none
  slot := none
  roundEnding := false
  watch := []
  cursor := none
  yard := Yard.reset
  rows := List.replicate 8 Profile.empty
  bays := []
  staged := Plan.reset
  commitPending := false
  marked := []
  generation := 0
  fallback := { slots := 1, eligible := 32, due := 56, urgent := 80, forced := 112, raisePeriod := 0 }
  clock := none
  minuteEnd := none
  queue := []
  lastJoin := 0
  slotHolders := 0
  raiseCounter := 0
  shed := .normal
  shedLine := false
  filtered := false
  filterEnd := none
  releaseSeen := false
  dwell := .absent
  gapEnd := none
  silence := .off
  silenceTimer := none
  savedMode := none
  claims := []
  mirrors := [none, none, none, none]
  ports := { office := PortState.reset, fuel := PortState.reset, patrol := PortState.reset }

end Sys2Proof.Machine
end

