-- ==== Sys2Proof/Machine/Codes.lean ====
section
/-!
DEFINITION. The codes of enumerated values in loop frames, port frames and event records (11 R204 to R207), and the
fixed class, ALARM flag and home port of each event kind (10 R185).
-/
namespace Sys2Proof.Machine

/-! ## Loop frames (11 R204) -/

/-- The command byte of a poll; NONE is 0. -/
def loopCmdCode : Option LoopCmd → Nat
  | none => 0
  | some .startShore => 1
  | some .startEngine => 2
  | some .stop => 3
  | some .beaconOn => 4
  | some .beaconOff => 5

/-- The class byte of a reply. -/
def UnitClass.ofCode : Nat → Option UnitClass
  | 1 => some .a
  | 2 => some .b
  | _ => none

/-- The unit mode byte of a reply; an unknown code shows no mode (R36). -/
def UnitMode.ofCode : Nat → Option UnitMode
  | 1 => some .cool
  | 2 => some .heat
  | 3 => some .defrost
  | 4 => some .null
  | 5 => some .off
  | 6 => some .alarm
  | _ => none

/-- The door byte of a reply; an unknown code is UNKNOWN (R35). -/
def DoorReading.ofCode : Nat → DoorReading
  | 0 => .closed
  | 1 => .opened
  | _ => .unknown

/-- The power source byte of a reply; an unknown code is NONE (R39). -/
def PowerSource.ofCode : Nat → PowerSource
  | 1 => .shore
  | 2 => .engine
  | _ => .none

/-! ## Port frames (11 R205) -/

/-- The unit class in the bay summary: absent 0. -/
def unitClassCode : Option UnitClass → Nat
  | none => 0
  | some .a => 1
  | some .b => 2

/-- The unit mode: absent 0. -/
def unitModeCode : Option UnitMode → Nat
  | none => 0
  | some .cool => 1
  | some .heat => 2
  | some .defrost => 3
  | some .null => 4
  | some .off => 5
  | some .alarm => 6

/-- The door reading. -/
def DoorReading.code : DoorReading → Nat
  | .closed => 0
  | .opened => 1
  | .unknown => 2

/-- The power source. -/
def PowerSource.code : PowerSource → Nat
  | .none => 0
  | .shore => 1
  | .engine => 2

/-- The defrost want, by the loop's command codes: absent 0. -/
def wantCode : Option DefrostWant → Nat
  | none => 0
  | some .startShore => 1
  | some .startEngine => 2
  | some .stop => 3

/-- The port. -/
def portCode : Port → Nat
  | .office => 0
  | .fuel => 1
  | .patrol => 2

/-- The port a code names. -/
def portOfCode : Nat → Option Port
  | 0 => some .office
  | 1 => some .fuel
  | 2 => some .patrol
  | _ => none

/-- The loop mode. -/
def LoopMode.code : LoopMode → Nat
  | .run => 1
  | .listen => 2
  | .fallback => 3
  | .halt => 4

/-- The loop mode a code names. -/
def LoopMode.ofCode : Nat → Option LoopMode
  | 1 => some .run
  | 2 => some .listen
  | 3 => some .fallback
  | 4 => some .halt
  | _ => none

/-- A beacon state. -/
def beaconCode (on : Bool) : Nat := if on then 1 else 0

/-- The confirmed beacon state: UNKNOWN 2. -/
def beaconConfirmedCode : Option Bool → Nat
  | some false => 0
  | some true => 1
  | none => 2

/-- The presence. -/
def Presence.code : Presence → Nat
  | .pending => 0
  | .present => 1
  | .lost => 2

/-- The urgency level; the codes rise with the level. -/
def Urgency.code : Urgency → Nat
  | .none => 0
  | .eligible => 1
  | .due => 2
  | .urgent => 3
  | .forced => 4

/-- The defrost state. -/
def DefrostState.code : DefrostState → Nat
  | .clear => 0
  | .queued => 1
  | .granted => 2
  | .running => 3
  | .stopping => 4
  | .drip => 5
  | .unknown => 6

/-- The defrost kind: none 0. -/
def kindCode : Option DefrostKind → Nat
  | none => 0
  | some .shore => 1
  | some .engine => 2

/-- The claim kind, fixed by the holder port (R128): SERVICE 0, FUEL 1, DOOR 2. -/
def claimKindCode : Port → Nat
  | .office => 0
  | .fuel => 1
  | .patrol => 2

/-- The fuel state. -/
def FuelState.code : FuelState → Nat
  | .unknown => 0
  | .ok => 1
  | .low => 2
  | .critical => 3

/-- The door check state. -/
def DoorState.code : DoorState → Nat
  | .shut => 0
  | .openAttended => 1
  | .openTiming => 2
  | .ajar => 3
  | .switchFault => 4

/-- The shed state. -/
def ShedState.code : ShedState → Nat
  | .normal => 0
  | .draining => 1
  | .shed => 2
  | .restart => 3

/-- The silence state. -/
def SilenceState.code : SilenceState → Nat
  | .off => 0
  | .watching => 1
  | .silent => 2

/-- The answer code, 1 to 16 in the order of the table of 10. -/
def AnswerCode.code : AnswerCode → Nat
  | .done => 1
  | .badFrame => 2
  | .unknownRequest => 3
  | .notPermitted => 4
  | .invalid => 5
  | .noSuchBay => 6
  | .held => 7
  | .noClaim => 8
  | .tableFull => 9
  | .portLimit => 10
  | .slotsInUse => 11
  | .bayInDefrost => 12
  | .commitPending => 13
  | .wrongMode => 14
  | .wrongState => 15
  | .empty => 16

/-! ## Event kinds (10 R185, 11 R207) -/

/-- The kind's number, from 1 in the order of R185. -/
def EventKind.code : EventKind → Nat
  | .doorAjar => 1
  | .doorShut => 2
  | .doorSwitchFault => 3
  | .fuelLow => 4
  | .fuelCritical => 5
  | .fuelRecovered => 6
  | .fuelUnknown => 7
  | .fuelShort => 8
  | .fuelBlocksDefrost => 9
  | .fillReported => 10
  | .defrostStarted => 11
  | .defrostEnded => 12
  | .defrostStartFailed => 13
  | .defrostRefused => 14
  | .defrostOverrun => 15
  | .defrostAbandoned => 16
  | .defrostUnplannedStopped => 17
  | .frostForcedWaiting => 18
  | .frostOverdue => 19
  | .bayLost => 20
  | .bayFound => 21
  | .unitAlarm => 22
  | .planApplied => 23
  | .officeSilent => 24
  | .shedEntered => 25
  | .shedLeft => 26
  | .claimExpired => 27
  | .claimRevoked => 28

/-- The kind's class. -/
def EventKind.cls : EventKind → EventClass
  | .doorAjar | .doorShut | .doorSwitchFault => .door
  | .fuelLow | .fuelCritical | .fuelRecovered | .fuelUnknown | .fuelShort | .fuelBlocksDefrost | .fillReported => .fuel
  | .defrostStarted | .defrostEnded | .defrostStartFailed | .defrostRefused | .defrostOverrun | .defrostAbandoned
  | .defrostUnplannedStopped | .frostForcedWaiting | .frostOverdue => .frost
  | .bayLost | .bayFound | .unitAlarm | .planApplied | .officeSilent | .shedEntered | .shedLeft | .claimExpired
  | .claimRevoked => .system

/-- The kind's ALARM flag. -/
def EventKind.alarm : EventKind → Bool
  | .doorAjar | .fuelCritical | .fuelShort | .defrostOverrun | .defrostAbandoned | .frostForcedWaiting | .bayLost
  | .unitAlarm | .officeSilent => true
  | .doorShut | .doorSwitchFault | .fuelLow | .fuelRecovered | .fuelUnknown | .fuelBlocksDefrost | .fillReported
  | .defrostStarted | .defrostEnded | .defrostStartFailed | .defrostRefused | .defrostUnplannedStopped | .frostOverdue
  | .bayFound | .planApplied | .shedEntered | .shedLeft | .claimExpired | .claimRevoked => false

/-- The kind's home port. The claim events go to the claim's holder port and OFFICE_SILENT to all three, which the
rules that post them name themselves (R136, R138, R177). -/
def EventKind.home : EventKind → Port
  | .doorAjar | .doorShut | .doorSwitchFault => .patrol
  | .fuelLow | .fuelCritical | .fuelRecovered | .fuelUnknown | .fuelShort | .fuelBlocksDefrost | .fillReported => .fuel
  | .defrostStarted | .defrostEnded | .defrostStartFailed | .defrostRefused | .defrostOverrun | .defrostAbandoned
  | .defrostUnplannedStopped | .frostForcedWaiting | .frostOverdue | .bayLost | .bayFound | .unitAlarm | .planApplied
  | .officeSilent | .shedEntered | .shedLeft | .claimExpired | .claimRevoked => .office

/-- The bit of a class in a class set: door 0, fuel 1, frost 2, system 3 (11 R205). -/
def EventClass.bit : EventClass → Nat
  | .door => 0
  | .fuel => 1
  | .frost => 2
  | .system => 3

/-! ## Reasons (11 R207) -/

/-- Why a DEFROST_STARTED, DEFROST_ENDED or other event was posted, each numbered from 1 in its row of R207. -/
def reasonGranted : Nat := 1
def reasonUnplanned : Nat := 2
def reasonNormal : Nat := 1
def reasonStopped : Nat := 2
def reasonNotTaken : Nat := 1
def reasonCheckFailed : Nat := 2
def reasonTimerWhileGranted : Nat := 3
def reasonUnitAlarm : Nat := 1
def reasonLostAtLimit : Nat := 2
def reasonLostWhileStopping : Nat := 3
def reasonUnseenAtLimit : Nat := 4
def reasonDroppedFromPlan : Nat := 5
def reasonNoGenset : Nat := 1
def reasonEnduranceUnknown : Nat := 2
def reasonBelowReserve : Nat := 3
def reasonModeAlarm : Nat := 1
def reasonMismatch : Nat := 2
def reasonRelease : Nat := 1
def reasonExpiry : Nat := 2

/-! ## Event detail (11 R207) -/

/-- A level in percent, UNKNOWN or absent 255 (R202). -/
def levelByte (l : Option Nat) : Byte := byteOf (l.getD 255)

/-- An item of an event's detail in its width. `free` gives the bytes no rule states (log 8). -/
def Item.bytes (free : Nat → Byte) : Item → List Byte
  | .minute m => be4 m
  | .need m => be4 (min m 4294967295)
  | .endurance (some e) => 1 :: be2 e
  | .endurance none => [0, free 0, free 1]
  | .word n => be2 n
  | .litres l => be2 (l.getD 65535)
  | .level l => [levelByte l]
  | .byte n => [byteOf n]

/-- The twelve detail bytes: the items packed in order, what is left over 0 (R207). -/
def detailBytes (free : Nat → Byte) (items : List Item) : List Byte :=
  let packed := items.flatMap (Item.bytes free)
  (packed ++ List.replicate (12 - packed.length) 0).take 12

/-- The record of 20 bytes that EVENT FETCH returns (R207). -/
def Event.record (free : Nat → Byte) (e : Event) : List Byte :=
  [byteOf e.kind.code, byteOf e.bay] ++ be4 (e.time.getD 0) ++ [byteOf e.count,
    byteOf (flagBit 0 e.mirrored + flagBit 1 e.kind.alarm + flagBit 2 e.time.isNone)] ++ detailBytes free e.detail

/-! ## Poll and answer frames -/

/-- The five bytes of a slot's poll (R204). -/
def Slot.pollFrame (sl : Slot) : List Byte :=
  withCheck [165, byteOf sl.bay, byteOf (loopCmdCode sl.carried), byteOf sl.num.toNat]

/-- The frame a port shifts out: its answer holder's content, or the empty answer (R183, R205). -/
def PortState.answerFrame (ps : PortState) : List Byte :=
  match ps.holder with
  | none => withCheck [5, ps.number, 0, 0]
  | some a =>
    withCheck ([byteOf (a.results.length + 5), a.number, a.request.getD 0, byteOf a.code.code] ++ a.results)

end Sys2Proof.Machine
end

