-- ==== Sys2Proof/Machine/Fields.lean ====
section
/-!
DEFINITION. The fields of a plan by name: their codes (11 R206), their ranges (08 R146), reading and setting one, and
the resolution of a bay's settings (08 R147).
-/
namespace Sys2Proof.Machine

/-- The overridable fields, AI to default lease, in the order of R146. -/
inductive SettingField where
  | ai | base | doorStep | doorCap | coilThreshold | coilStep | coilCap | eligible | due | urgent | forced
  | maxIntervals | maxDefrost | dripTime | capacity | burnEstimate | lowLimit | criticalLimit | hysteresis
  | defrostReserve | departureMargin | doorGrace | autoBeacon | defaultLease
  deriving DecidableEq, Repr

/-- The yard-only fields, S to K_f, in the order of R146. -/
inductive YardField where
  | slots | margin | raisePeriod | silenceLimit | silenceAction | recovery | shedDwell | restartGap | fbSlots
  | fbEligible | fbDue | fbUrgent | fbForced | fbRaise
  deriving DecidableEq, Repr

/-- Any field that a staging setting can name. -/
inductive PlanField where
  | row | genset | departure | setting (f : SettingField) | yardOnly (f : YardField)
  deriving DecidableEq, Repr

/-- The overridable fields in the order in which PLAN COMMIT checks them. -/
def settingFields : List SettingField :=
  [.ai, .base, .doorStep, .doorCap, .coilThreshold, .coilStep, .coilCap, .eligible, .due, .urgent, .forced,
   .maxIntervals, .maxDefrost, .dripTime, .capacity, .burnEstimate, .lowLimit, .criticalLimit, .hysteresis,
   .defrostReserve, .departureMargin, .doorGrace, .autoBeacon, .defaultLease]

/-- The yard-only fields in the order in which PLAN COMMIT checks them. -/
def yardFields : List YardField :=
  [.slots, .margin, .raisePeriod, .silenceLimit, .silenceAction, .recovery, .shedDwell, .restartGap, .fbSlots,
   .fbEligible, .fbDue, .fbUrgent, .fbForced, .fbRaise]

/-- The field code of R206: 4 to 27. -/
def SettingField.code (f : SettingField) : Nat := settingFields.idxOf f + 4

/-- The field code of R206: 28 to 41. -/
def YardField.code (f : YardField) : Nat := yardFields.idxOf f + 28

/-- The field a code of R206 names, if any. -/
def PlanField.ofCode (code : Nat) : Option PlanField :=
  if code = 1 then some .row
  else if code = 2 then some .genset
  else if code = 3 then some .departure
  else if code < 4 then none
  else if code < 28 then (settingFields[code - 4]?).map .setting
  else (yardFields[code - 28]?).map .yardOnly

/-- Lowest and highest value of an overridable field (R146). -/
def SettingField.range : SettingField → Nat × Nat
  | .ai => (1, 60)
  | .base => (0, 15)
  | .doorStep => (10, 120)
  | .doorCap => (0, 15)
  | .coilThreshold => (10, 200)
  | .coilStep => (5, 50)
  | .coilCap => (0, 15)
  | .eligible => (1, 255)
  | .due => (1, 255)
  | .urgent => (1, 255)
  | .forced => (1, 255)
  | .maxIntervals => (0, 255)
  | .maxDefrost => (10, 90)
  | .dripTime => (0, 60)
  | .capacity => (50, 400)
  | .burnEstimate => (1, 255)
  | .lowLimit => (0, 65535)
  | .criticalLimit => (0, 65535)
  | .hysteresis => (0, 240)
  | .defrostReserve => (0, 1440)
  | .departureMargin => (0, 1440)
  | .doorGrace => (30, 900)
  | .autoBeacon => (0, 1)
  | .defaultLease => (1, 240)

/-- Whether a value of an overridable field lies in its range. -/
def SettingField.inRange (f : SettingField) (v : Nat) : Bool := decide (f.range.1 ≤ v) && decide (v ≤ f.range.2)

/-- Whether a value of a yard-only field lies in its range (R146). S_f is left to step 4 of R155. A silence limit is 0
or 10 to 600. -/
def YardField.inRange (f : YardField) (v : Nat) : Bool :=
  match f with
  | .slots => decide (v ≤ 16)
  | .margin => decide (v ≤ 4)
  | .raisePeriod => decide (v ≤ 64)
  | .silenceLimit => decide (v = 0) || (decide (10 ≤ v) && decide (v ≤ 600))
  | .silenceAction => decide (v ≤ 1)
  | .recovery => decide (v ≤ 1)
  | .shedDwell => decide (v ≤ 600)
  | .restartGap => decide (v ≤ 120)
  | .fbSlots => true
  | .fbEligible => decide (1 ≤ v) && decide (v ≤ 255)
  | .fbDue => decide (1 ≤ v) && decide (v ≤ 255)
  | .fbUrgent => decide (1 ≤ v) && decide (v ≤ 255)
  | .fbForced => decide (1 ≤ v) && decide (v ≤ 255)
  | .fbRaise => decide (v ≤ 64)

/-- The value of a field. -/
def Settings.get {α : Type} (p : Settings α) : SettingField → α
  | .ai => p.ai
  | .base => p.base
  | .doorStep => p.doorStep
  | .doorCap => p.doorCap
  | .coilThreshold => p.coilThreshold
  | .coilStep => p.coilStep
  | .coilCap => p.coilCap
  | .eligible => p.eligible
  | .due => p.due
  | .urgent => p.urgent
  | .forced => p.forced
  | .maxIntervals => p.maxIntervals
  | .maxDefrost => p.maxDefrost
  | .dripTime => p.dripTime
  | .capacity => p.capacity
  | .burnEstimate => p.burnEstimate
  | .lowLimit => p.lowLimit
  | .criticalLimit => p.criticalLimit
  | .hysteresis => p.hysteresis
  | .defrostReserve => p.defrostReserve
  | .departureMargin => p.departureMargin
  | .doorGrace => p.doorGrace
  | .autoBeacon => p.autoBeacon
  | .defaultLease => p.defaultLease

/-- A profile with one field set. -/
def Settings.set {α : Type} (p : Settings α) (f : SettingField) (v : α) : Settings α :=
  match f with
  | .ai => { p with ai := v }
  | .base => { p with base := v }
  | .doorStep => { p with doorStep := v }
  | .doorCap => { p with doorCap := v }
  | .coilThreshold => { p with coilThreshold := v }
  | .coilStep => { p with coilStep := v }
  | .coilCap => { p with coilCap := v }
  | .eligible => { p with eligible := v }
  | .due => { p with due := v }
  | .urgent => { p with urgent := v }
  | .forced => { p with forced := v }
  | .maxIntervals => { p with maxIntervals := v }
  | .maxDefrost => { p with maxDefrost := v }
  | .dripTime => { p with dripTime := v }
  | .capacity => { p with capacity := v }
  | .burnEstimate => { p with burnEstimate := v }
  | .lowLimit => { p with lowLimit := v }
  | .criticalLimit => { p with criticalLimit := v }
  | .hysteresis => { p with hysteresis := v }
  | .defrostReserve => { p with defrostReserve := v }
  | .departureMargin => { p with departureMargin := v }
  | .doorGrace => { p with doorGrace := v }
  | .autoBeacon => { p with autoBeacon := v }
  | .defaultLease => { p with defaultLease := v }

/-- The value of a yard-only field. -/
def YardOnly.get (p : YardOnly) : YardField → Nat
  | .slots => p.slots
  | .margin => p.margin
  | .raisePeriod => p.raisePeriod
  | .silenceLimit => p.silenceLimit
  | .silenceAction => p.silenceAction
  | .recovery => p.recovery
  | .shedDwell => p.shedDwell
  | .restartGap => p.restartGap
  | .fbSlots => p.fbSlots
  | .fbEligible => p.fbEligible
  | .fbDue => p.fbDue
  | .fbUrgent => p.fbUrgent
  | .fbForced => p.fbForced
  | .fbRaise => p.fbRaise

/-- The yard-only fields with one set. -/
def YardOnly.set (p : YardOnly) (f : YardField) (v : Nat) : YardOnly :=
  match f with
  | .slots => { p with slots := v }
  | .margin => { p with margin := v }
  | .raisePeriod => { p with raisePeriod := v }
  | .silenceLimit => { p with silenceLimit := v }
  | .silenceAction => { p with silenceAction := v }
  | .recovery => { p with recovery := v }
  | .shedDwell => { p with shedDwell := v }
  | .restartGap => { p with restartGap := v }
  | .fbSlots => { p with fbSlots := v }
  | .fbEligible => { p with fbEligible := v }
  | .fbDue => { p with fbDue := v }
  | .fbUrgent => { p with fbUrgent := v }
  | .fbForced => { p with fbForced := v }
  | .fbRaise => { p with fbRaise := v }

/-- One field's value: the bay's override, otherwise its row's, otherwise the yard's (R147). -/
def pick (bay row : Option Nat) (yard : Nat) : Nat := bay.getD (row.getD yard)

/-- A bay's resolved settings, each field on its own (R147). -/
def Settings.resolve (bay row : Profile) (yard : Settings Nat) : Settings Nat where
  ai := pick bay.ai row.ai yard.ai
  base := pick bay.base row.base yard.base
  doorStep := pick bay.doorStep row.doorStep yard.doorStep
  doorCap := pick bay.doorCap row.doorCap yard.doorCap
  coilThreshold := pick bay.coilThreshold row.coilThreshold yard.coilThreshold
  coilStep := pick bay.coilStep row.coilStep yard.coilStep
  coilCap := pick bay.coilCap row.coilCap yard.coilCap
  eligible := pick bay.eligible row.eligible yard.eligible
  due := pick bay.due row.due yard.due
  urgent := pick bay.urgent row.urgent yard.urgent
  forced := pick bay.forced row.forced yard.forced
  maxIntervals := pick bay.maxIntervals row.maxIntervals yard.maxIntervals
  maxDefrost := pick bay.maxDefrost row.maxDefrost yard.maxDefrost
  dripTime := pick bay.dripTime row.dripTime yard.dripTime
  capacity := pick bay.capacity row.capacity yard.capacity
  burnEstimate := pick bay.burnEstimate row.burnEstimate yard.burnEstimate
  lowLimit := pick bay.lowLimit row.lowLimit yard.lowLimit
  criticalLimit := pick bay.criticalLimit row.criticalLimit yard.criticalLimit
  hysteresis := pick bay.hysteresis row.hysteresis yard.hysteresis
  defrostReserve := pick bay.defrostReserve row.defrostReserve yard.defrostReserve
  departureMargin := pick bay.departureMargin row.departureMargin yard.departureMargin
  doorGrace := pick bay.doorGrace row.doorGrace yard.doorGrace
  autoBeacon := pick bay.autoBeacon row.autoBeacon yard.autoBeacon
  defaultLease := pick bay.defaultLease row.defaultLease yard.defaultLease

/-- The row profile a number names; a number above 7 names none and gives nothing. -/
def Plan.row (p : Plan) (n : Nat) : Profile := p.rows.getD n Profile.empty

/-- The settings a plan resolves for a bay record of it. -/
def Plan.resolve (p : Plan) (e : PlanBay) : Settings Nat :=
  Settings.resolve e.overrides (p.row e.row) p.yard.settings

end Sys2Proof.Machine
end

