-- ==== Sys2Proof/Machine/Ops.lean ====
section
/-!
DEFINITION. The named operations over what State holds: lists kept by key, the bay records and their field groups, the
ports, the claim table, the shore slots, the timebase.
-/
namespace Sys2Proof.Machine

/-! ## Lists kept by rising key -/

/-- The record under a key. -/
def findKey {α : Type} (k : Nat) : List (Nat × α) → Option α
  | [] => none
  | (j, v) :: rest => if j = k then some v else findKey k rest

/-- The record under a key changed; the rest as they stand. -/
def mapKey {α : Type} (k : Nat) (f : α → α) (l : List (Nat × α)) : List (Nat × α) :=
  l.map fun p => if p.1 = k then (p.1, f p.2) else p

/-- A record put under a key, in its place by rising key. -/
def putKey {α : Type} (k : Nat) (v : α) : List (Nat × α) → List (Nat × α)
  | [] => [(k, v)]
  | (j, w) :: rest => if k < j then (k, v) :: (j, w) :: rest else if k = j then (k, v) :: rest else (j, w) :: putKey k v rest

/-- The record under a key removed. -/
def dropKey {α : Type} (k : Nat) (l : List (Nat × α)) : List (Nat × α) := l.filter fun p => p.1 ≠ k

/-- The keys, in order. -/
def keysOf {α : Type} (l : List (Nat × α)) : List Nat := l.map Prod.fst

/-- Insertion by an order test: before the first entry that it stands before. -/
def insertBy {α : Type} (before : α → α → Bool) (x : α) : List α → List α
  | [] => [x]
  | y :: rest => if before x y then x :: y :: rest else y :: insertBy before x rest

/-- Insertion sort; entries that neither stands before the other keep their order. -/
def sortBy {α : Type} (before : α → α → Bool) : List α → List α
  | [] => []
  | x :: rest => insertBy before x (sortBy before rest)

/-! ## The timebase (00 Conventions; log 1) -/

/-- Steps of the timebase in a second: a step is the 25 ms of a poll slot. -/
def stepsPerSecond : Nat := 40

/-- The reading of the seconds timebase. -/
def State.seconds (s : State) : Nat := s.now / stepsPerSecond

/-- The count at which a timer of `n` seconds started now runs out. DESIGN CHOICE: it runs `n` whole seconds from the step
on which it starts, not to the `n`th tick of the seconds timebase after it (log 39). -/
def State.inSeconds (s : State) (n : Nat) : Nat := s.now + n * stepsPerSecond

/-- The count at which a timer of `n` minutes started now runs out. -/
def State.inMinutes (s : State) (n : Nat) : Nat := s.inSeconds (n * 60)

/-- Whether a timer held as its end has run out. -/
def State.due (s : State) : Option Nat → Bool
  | none => false
  | some t => decide (t ≤ s.now)

/-- Whether a running timer has run out. -/
def State.timerDue (s : State) : Timer → Bool
  | .running t => decide (t ≤ s.now)
  | .absent => false
  | .spent => false

/-! ## Ports -/

/-- The value for a port. -/
def PerPort.get {α : Type} (p : PerPort α) : Port → α
  | .office => p.office
  | .fuel => p.fuel
  | .patrol => p.patrol

/-- A value for each port made from another. -/
def PerPort.map {α β : Type} (p : PerPort α) (f : α → β) : PerPort β :=
  { office := f p.office, fuel := f p.fuel, patrol := f p.patrol }

/-- The value for a port changed. -/
def PerPort.mod {α : Type} (p : PerPort α) (port : Port) (f : α → α) : PerPort α :=
  match port with
  | .office => { p with office := f p.office }
  | .fuel => { p with fuel := f p.fuel }
  | .patrol => { p with patrol := f p.patrol }

/-- A port's record. -/
def State.port (s : State) (p : Port) : PortState := s.ports.get p

/-- A port's record changed. -/
def State.modPort (s : State) (p : Port) (f : PortState → PortState) : State := { s with ports := s.ports.mod p f }

/-! ## Bay records -/

/-- The record of a bay of the committed plan. -/
def State.bay? (s : State) (b : Nat) : Option Bay := findKey b s.bays

/-- Whether the committed plan holds the bay. -/
def State.planned (s : State) (b : Nat) : Bool := (s.bay? b).isSome

/-- The addresses of the committed plan, rising. -/
def State.addresses (s : State) : List Nat := keysOf s.bays

/-- A bay's record changed. -/
def State.modBay (s : State) (b : Nat) (f : Bay → Bay) : State := { s with bays := mapKey b f s.bays }

/-- LC's fields of a bay changed. -/
def State.modLoop (s : State) (b : Nat) (f : LoopRec → LoopRec) : State :=
  s.modBay b fun r => { r with loop := f r.loop }

/-- BT's reading fields of a bay changed. -/
def State.modReadings (s : State) (b : Nat) (f : Readings → Readings) : State :=
  s.modBay b fun r => { r with readings := f r.readings }

/-- FAU's fields of a bay changed. -/
def State.modFrost (s : State) (b : Nat) (f : FrostRec → FrostRec) : State :=
  s.modBay b fun r => { r with frost := f r.frost }

/-- DS's fields of a bay changed. -/
def State.modDefrost (s : State) (b : Nat) (f : DefrostRec → DefrostRec) : State :=
  s.modBay b fun r => { r with defrost := f r.defrost }

/-- FCU's fields of a bay changed. -/
def State.modFuel (s : State) (b : Nat) (f : FuelRec → FuelRec) : State :=
  s.modBay b fun r => { r with fuel := f r.fuel }

/-- DCU's fields of a bay changed. -/
def State.modDoor (s : State) (b : Nat) (f : DoorRec → DoorRec) : State :=
  s.modBay b fun r => { r with door := f r.door }

/-- What an operation does on the bay's record; nothing where the plan does not hold the bay. -/
def State.onBay (s : State) (b : Nat) (k : Bay → State) : State :=
  match s.bay? b with
  | some r => k r
  | none => s

/-- The bay's defrost state. -/
def State.defrostState (s : State) (b : Nat) : Option DefrostState := (s.bay? b).map fun r => r.defrost.state

/-- Whether the bay's defrost state is the one named. -/
def State.inDefrost (s : State) (b : Nat) (d : DefrostState) : Bool := s.defrostState b == some d

/-- The bays of the committed plan, rising, in which an event is taken one after another (log 10). -/
def State.overBays (s : State) (f : Nat → State → State) : State := s.addresses.foldl (fun t b => f b t) s

/-- The committed plan as a plan of its own. -/
def State.committed (s : State) : Plan where
  yard := s.yard
  rows := s.rows
  bays := s.bays.map fun p => (p.1, p.2.entry)

/-! ## The claim table (07 R127) -/

/-- The claim on a bay. -/
def State.claimOf (s : State) (b : Nat) : Option Claim := findKey b s.claims

/-- Whether the bay holds a claim. -/
def State.claimed (s : State) (b : Nat) : Bool := (s.claimOf b).isSome

/-- A record added, and the holder port's count raised. -/
def State.addClaim (s : State) (b : Nat) (c : Claim) : State :=
  { s with claims := putKey b c s.claims }.modPort c.holder fun p => { p with claimCount := p.claimCount + 1 }

/-- A record removed, and the holder port's count lowered. -/
def State.removeClaim (s : State) (b : Nat) : State :=
  match s.claimOf b with
  | none => s
  | some c => { s with claims := dropKey b s.claims }.modPort c.holder fun p => { p with claimCount := p.claimCount - 1 }

/-! ## Shore slots (04 R75) -/

/-- The slot-holder flag set and the count raised. -/
def State.takeSlot (s : State) (b : Nat) : State :=
  { s.modDefrost b fun d => { d with slot := true } with slotHolders := s.slotHolders + 1 }

/-- The slot-holder flag cleared and the count lowered; nothing where the flag is clear. -/
def State.clearSlot (s : State) (b : Nat) : State :=
  s.onBay b fun r =>
    if r.defrost.slot then
      { s.modDefrost b fun d => { d with slot := false } with slotHolders := s.slotHolders - 1 }
    else s

/-! ## Free values -/

/-- The bytes that the next answer with unstated bytes sends there (log 8). -/
def State.free (s : State) (place : Nat) : Byte := Config.freeByte s.freeCount place

/-- The counter of such answers advanced. -/
def State.useFree (s : State) : State := { s with freeCount := s.freeCount + 1 }

end Sys2Proof.Machine
end

