-- ==== Sys2Proof/Machine/Flags.lean ====
section
/-!
DEFINITION. Levels, marks and limits computed from what State holds: urgency (03 R54), the fuel grade and the departure
need (05 R96, R99), the watch cause (01 R7), the ATTN line (10 R189), the shore limit in force (04 R68).
-/
namespace Sys2Proof.Machine

/-! ## Frost -/

/-- The four urgency thresholds. -/
structure Thresholds where
  eligible : Nat
  due : Nat
  urgent : Nat
  forced : Nat
  deriving DecidableEq, Repr

/-- The thresholds in force for a bay: the fallback profile's in FALLBACK, the bay's own otherwise (R54). -/
def State.thresholds (s : State) (r : Bay) : Thresholds :=
  if s.mode = .fallback then ⟨s.fallback.eligible, s.fallback.due, s.fallback.urgent, s.fallback.forced⟩
  else ⟨r.settings.eligible, r.settings.due, r.settings.urgent, r.settings.forced⟩

/-- The level of a debt (R54). -/
def Thresholds.level (t : Thresholds) (debt : Nat) : Urgency :=
  if t.forced ≤ debt then .forced
  else if t.urgent ≤ debt then .urgent
  else if t.due ≤ debt then .due
  else if t.eligible ≤ debt then .eligible
  else .none

/-- Whether a level is at least another. -/
def Urgency.atLeast (u v : Urgency) : Bool := decide (v.code ≤ u.code)

/-- The door term (R47): the seconds divided by the door step, at most the cap. -/
def doorTerm (st : Settings Nat) (seconds : Nat) : Nat := min (seconds / st.doorStep) st.doorCap

/-- The coil term (R48). -/
def coilTerm (st : Settings Nat) (p : Presence) (coil returnAir : Option Int) : Nat :=
  match p, coil, returnAir with
  | .present, some c, some ra =>
    if ra - c ≤ (st.coilThreshold : Int) then 0
    else min ((ra - c - (st.coilThreshold : Int)).toNat / st.coilStep) st.coilCap
  | _, _, _ => 0

/-- The debt after an addition: at most 255 (R49). -/
def addDebt (debt add : Nat) : Nat := min (debt + add) 255

/-! ## Fuel -/

/-- The divisor of the endurance: the stored rate, or the estimate where it is 0 (R93). -/
def burnUsed (st : Settings Nat) (rate : Nat) : Nat := if rate = 0 then st.burnEstimate else rate

/-- The exact quotient L × C × 6 ÷ b (R94). -/
def enduranceQuotient (st : Settings Nat) (level rate : Nat) : Nat := level * st.capacity * 6 / burnUsed st rate

/-- The fuel state after an evaluation, from the state held and the new endurance (R96). -/
def fuelGrade (st : Settings Nat) (held : FuelState) : Option Nat → FuelState
  | none => .unknown
  | some e =>
    if e < st.criticalLimit then .critical
    else if e < st.lowLimit then .low
    else if st.lowLimit + st.hysteresis ≤ e then .ok
    else match held with
      | .unknown => .ok
      | .ok => .ok
      | .low => .low
      | .critical => .low

/-- The need of a departure: the minutes to it, if it lies ahead, plus P (R99). -/
def departureNeed (st : Settings Nat) (departure clock : Nat) : Nat := (departure - clock) + st.departureMargin

/-- Whether the endurance is known and at least the defrost reserve (R102). -/
def fuelAllows (r : Bay) : Bool :=
  match r.fuel.endurance with
  | none => false
  | some e => decide (r.settings.defrostReserve ≤ e)

/-! ## Watch causes (01 R7) -/

/-- Whether a door check state is a watch cause. -/
def DoorState.isCause : DoorState → Bool
  | .openTiming => true
  | .ajar => true
  | .shut => false
  | .openAttended => false
  | .switchFault => false

/-- Whether a defrost state is a watch cause. -/
def DefrostState.isCause : DefrostState → Bool
  | .granted => true
  | .stopping => true
  | .clear => false
  | .queued => false
  | .running => false
  | .drip => false
  | .unknown => false

/-- Whether a bay has a watch cause. -/
def State.hasCause (s : State) (b : Nat) : Bool :=
  match s.bay? b with
  | none => false
  | some r => s.claimed b || r.door.state.isCause || r.defrost.state.isCause

/-! ## The shore budget -/

/-- S, or S_f of the fallback profile in use in FALLBACK; while a commit is pending, no more than the pending plan's
(R68). -/
def State.shoreLimit (s : State) : Nat :=
  match s.mode with
  | .fallback => if s.commitPending then min s.fallback.slots s.staged.yard.only.fbSlots else s.fallback.slots
  | .run | .listen | .halt => if s.commitPending then min s.yard.only.slots s.staged.yard.only.slots else s.yard.only.slots

/-- The free slots: none when the count stands at or above the limit (R68). -/
def State.freeSlots (s : State) : Nat := s.shoreLimit - s.slotHolders

/-- K in force (R71). -/
def State.raisePeriod (s : State) : Nat := if s.mode = .fallback then s.fallback.raisePeriod else s.yard.only.raisePeriod

/-- Whether the next shore grant is a raise (R71). -/
def State.raiseDue (s : State) : Bool := decide (1 ≤ s.raisePeriod) && decide (s.raisePeriod ≤ s.raiseCounter)

/-- Whether a pending commit marks the bay for removal (R157). -/
def State.isMarked (s : State) (b : Nat) : Bool := s.marked.contains b

/-- The kind a grant would fix now (R68). -/
def kindNow (r : Bay) : DefrostKind := if r.readings.sourceInUse = .engine then .engine else .shore

/-- Whether a queued bay is grantable (R67). -/
def State.grantable (s : State) (b : Nat) (r : Bay) : Bool :=
  (r.loop.presence == .present) && !s.claimed b && !(r.readings.door == .opened) && !r.defrost.refusal
    && !(r.readings.unitMode == some .off) && !(r.readings.unitMode == some .alarm) && !s.isMarked b
    && (s.mode == .run || s.mode == .fallback)

/-- A slot is free to adopt an unplanned defrost (R86). -/
def State.slotToAdopt (s : State) (b : Nat) : Bool :=
  decide (s.slotHolders < s.shoreLimit) && (s.shed == .normal) && !s.isMarked b

/-! ## ATTN (10 R189) -/

/-- The bit of a class set that an entry belongs to under a class count. -/
def classBit (n : ClassCount) (k : EventKind) : Nat :=
  match n with
  | .four => k.cls.bit
  | .two => if k.alarm then 0 else 1
  | .one => 0

/-- Whether an entry belongs to an unmasked class. -/
def PortState.unmasked (ps : PortState) (e : Event) : Bool := ps.mask.getLsbD (classBit ps.classCount e.kind)

/-- The level the queue and the mask give the ATTN line. -/
def PortState.attnLevel (ps : PortState) : Bool := ps.queue.any ps.unmasked

/-- The ATTN line set from the queue and the mask. -/
def PortState.setAttn (ps : PortState) : PortState := { ps with attn := ps.attnLevel }

end Sys2Proof.Machine
end

