-- ==== Sys2Proof/Machine/Holder.lean ====
section
/-!
DEFINITION. The command holder of a bay: wants and their rank, issuing, sending, confirming, dropping (01 R15 to R24).
-/
namespace Sys2Proof.Machine

/-- The loop command of a defrost want. -/
def DefrostWant.cmd : DefrostWant → LoopCmd
  | .startShore => .startShore
  | .startEngine => .startEngine
  | .stop => .stop

/-- Whether a command is START_SHORE or START_ENGINE. -/
def LoopCmd.isStart : LoopCmd → Bool
  | .startShore => true
  | .startEngine => true
  | .stop => false
  | .beaconOn => false
  | .beaconOff => false

/-- Whether a command is a beacon command. -/
def LoopCmd.isBeacon : LoopCmd → Bool
  | .beaconOn => true
  | .beaconOff => true
  | .startShore => false
  | .startEngine => false
  | .stop => false

/-- A command in flight dropped: the baseline takes its number if it has been sent (R22). -/
def LoopRec.drop (l : LoopRec) : LoopRec :=
  match l.flight with
  | none => l
  | some f => { l with flight := none, baseline := if 1 ≤ f.sends then some f.num else l.baseline }

/-- A defrost command in flight dropped when it is no longer the one wanted (R22). -/
def LoopRec.dropUnwanted (l : LoopRec) (want : Option DefrostWant) : LoopRec :=
  match l.flight with
  | none => l
  | some f => if f.cmd.isBeacon || want.map DefrostWant.cmd == some f.cmd then l else l.drop

/-- The defrost want set or cleared by DS (R15), with the drop of R22. -/
def State.setWant (s : State) (b : Nat) (want : Option DefrostWant) : State :=
  (s.modDefrost b fun d => { d with want := want }).modLoop b fun l => l.dropUnwanted want

/-- The beacon command that a bay wants: a beacon command in flight until it is confirmed, otherwise the wanted state
where it differs from the confirmed one (R15, R16). -/
def beaconCandidate (l : LoopRec) (d : DoorRec) : Option LoopCmd :=
  match l.flight with
  | some f => if f.cmd.isBeacon then some f.cmd else wanted
  | none => wanted
where
  wanted : Option LoopCmd :=
    if d.beaconConfirmed = some d.beaconWanted then none else if d.beaconWanted then some .beaconOn else some .beaconOff

/-- Whether a start may be carried to the bay (R16). -/
def State.startCarriable (s : State) (b : Nat) (r : Bay) : Bool :=
  (r.defrost.state == .granted) && !s.claimed b && !(r.readings.door == .opened) && (s.mode == .run || s.mode == .fallback)

/-- The highest-ranked want that may be carried: STOP, a start, the beacon (R15, R16). -/
def State.candidate (s : State) (b : Nat) (r : Bay) : Option LoopCmd :=
  match r.defrost.want with
  | some .stop => some .stop
  | some .startShore => if s.startCarriable b r then some .startShore else beaconCandidate r.loop r.door
  | some .startEngine => if s.startCarriable b r then some .startEngine else beaconCandidate r.loop r.door
  | none => beaconCandidate r.loop r.door

/-- A command issued new takes the number above the baseline (R17) and is sent at once in this poll (R18). -/
def LoopRec.issue (l : LoopRec) (c : LoopCmd) : LoopRec :=
  { l with flight := some { cmd := c, num := l.baseline.getD 0 + 1, sends := 1 } }

/-- What a poll carries: the command (`none` for NONE) and its number. -/
structure Poll where
  carried : Option LoopCmd
  num : BitVec 2
  deriving DecidableEq, Repr

/-- A poll that carries NONE carries the baseline as its number, or 0 while that is unknown (R16). -/
def LoopRec.idlePoll (l : LoopRec) : Poll := ⟨none, l.baseline.getD 0⟩

/-- LC's record of the bay with the poll that carries its command in flight. -/
def LoopRec.withPoll (l : LoopRec) : LoopRec × Poll :=
  match l.flight with
  | some f => (l, ⟨some f.cmd, f.num⟩)
  | none => (l, l.idlePoll)

/-- The poll of a bay composed when its slot begins (R16 to R18, R22). A start in flight that may not be carried is
held: the poll carries NONE though a beacon is wanted (log 18). -/
def State.compose (s : State) (b : Nat) (r : Bay) : LoopRec × Poll :=
  let l := r.loop
  if !(s.mode == .run || s.mode == .fallback) || l.baseline.isNone then (l, l.idlePoll)
  else
    match s.candidate b r with
    | none => (l, l.idlePoll)
    | some c =>
      match l.flight with
      | none => (l.issue c).withPoll
      | some f =>
        if f.cmd = c then { l with flight := some { f with sends := min (f.sends + 1) 255 } }.withPoll
        else if f.cmd.isStart && c.isBeacon then (l, l.idlePoll)
        else (l.drop.issue c).withPoll

/-- The outcome that a slot gave the bay's command holder (R14). -/
inductive HolderOutcome where
  | noChange | confirmed (c : LoopCmd) | startNotTaken | adopted
  deriving DecidableEq, Repr

/-- Whether this slot's poll was the third send of a start in flight (R21). -/
def LoopRec.thirdSend (l : LoopRec) (carried : Option LoopCmd) : Bool :=
  match l.flight with
  | none => false
  | some f => f.cmd.isStart && (carried == some f.cmd) && decide (3 ≤ f.sends)

/-- A start taken from flight, the baseline as it stands (R21). -/
def LoopRec.abandonStart (l : LoopRec) : LoopRec := { l with flight := none }

/-- An echo that is neither the baseline nor the number in flight becomes the baseline, and a command in flight is
renumbered (R24). -/
def LoopRec.adopt (l : LoopRec) (echo : BitVec 2) : LoopRec :=
  { l with baseline := some echo, flight := l.flight.map fun f => { f with num := echo + 1 } }

/-- The echo of a valid reply (R19 to R21, R23, R24). -/
def LoopRec.echoed (l : LoopRec) (echo : BitVec 2) (carried : Option LoopCmd) : LoopRec × HolderOutcome :=
  match l.baseline, l.flight with
  | none, _ => ({ l with baseline := some echo }, .adopted)
  | some base, none => if echo = base then (l, .noChange) else (l.adopt echo, .adopted)
  | some base, some f =>
    if echo = f.num then ({ l with baseline := some f.num, flight := none }, .confirmed f.cmd)
    else
      let l' := if echo = base then l else l.adopt echo
      if l.thirdSend carried then (l'.abandonStart, .startNotTaken)
      else (l', if echo = base then .noChange else .adopted)

/-- A miss leaves the command in flight, but for the third send of a start (R19, R21). -/
def LoopRec.missed (l : LoopRec) (carried : Option LoopCmd) : LoopRec × HolderOutcome :=
  if l.thirdSend carried then (l.abandonStart, .startNotTaken) else (l, .noChange)

end Sys2Proof.Machine
end

