-- ==== Sys2Proof/Machine/Router.lean ====
section
/-!
DEFINITION. The Event Router: taking a posting into a queue, overflow, mirror copies (10 R186 to R188).
-/
namespace Sys2Proof.Machine

/-- Whether an entry is of the same kind and bay as an event (R186). -/
def Event.same (a b : Event) : Bool := (a.kind == b.kind) && (a.bay == b.bay)

/-- The entry that takes an event of its kind and bay: its count raised, stopping at 255; time, detail and MIRRORED
replaced (R186). -/
def Event.coalesce (old new : Event) : Event := { new with count := min (old.count + 1) 255 }

/-- A queue's capacity (R186). -/
def queueCapacity : Nat := 32

/-- A queue takes an event: it coalesces, is appended, or overflows (R186, R187). -/
def PortState.take (ps : PortState) (e : Event) : PortState :=
  if ps.queue.any (Event.same e) then
    { ps with queue := ps.queue.map fun old => if Event.same e old then Event.coalesce old e else old }
  else if ps.queue.length < queueCapacity then { ps with queue := ps.queue ++ [e] }.setAttn
  else { ps with overflow := true }

/-- Whether a mirror rule matches a posting to a home port (R188). -/
def MirrorRule.hits (m : MirrorRule) (home : Port) (e : Event) : Bool :=
  (m.source == home) && decide (m.first ≤ e.bay) && decide (e.bay ≤ m.last) && m.classes.getLsbD e.kind.cls.bit

/-- The destinations of a posting, each once, by the lowest-numbered rule that names it (R188). -/
def mirrorDests (rules : List (Option MirrorRule)) (home : Port) (e : Event) : List Port :=
  rules.foldl (fun dests rule =>
    match rule with
    | none => dests
    | some m => if m.hits home e && !dests.contains m.dest then dests ++ [m.dest] else dests) []

/-- An event posted to a home port, and its mirror copies after it (R186, R188). -/
def State.postAt (s : State) (home : Port) (kind : EventKind) (bay : Nat) (detail : List Item) : State :=
  let e : Event := { kind, bay, time := s.clock, count := 1, detail, mirrored := false }
  (mirrorDests s.mirrors home e).foldl (fun t p => t.modPort p fun ps => ps.take { e with mirrored := true })
    (s.modPort home fun ps => ps.take e)

/-- An event posted to its kind's home port (R185). -/
def State.post (s : State) (kind : EventKind) (bay : Nat) (detail : List Item) : State :=
  s.postAt kind.home kind bay detail

end Sys2Proof.Machine
end

