-- ==== Sys2Proof/Machine/Watch.lean ====
section
/-!
DEFINITION. The watch list and its cursor (01 R5, R7 to R9).
-/
namespace Sys2Proof.Machine

/-- The most bays on the watch list (R7). -/
def watchCapacity : Nat := 4

/-- The bay that stands just before another in admission order, if any. -/
def bayBefore (b : Nat) : List Nat → Option Nat
  | [] => none
  | [_] => none
  | x :: y :: rest => if y = b then some x else bayBefore b (y :: rest)

/-- A bay admitted at the end of the list if there is room and it is not on it (R8). -/
def State.enlist (s : State) (b : Nat) : State :=
  if s.watch.contains b || decide (watchCapacity ≤ s.watch.length) then s else { s with watch := s.watch ++ [b] }

/-- A block reports that a watch cause of the bay begins (R8). -/
def State.causeBegins (s : State) (b : Nat) : State := s.enlist b

/-- The lowest-addressed bay of the plan with a cause that is not admitted is admitted (R9). -/
def State.enlistLowest (s : State) : State :=
  match s.addresses.find? (fun b => s.hasCause b && !s.watch.contains b) with
  | some b => s.enlist b
  | none => s

/-- A bay taken off the list; a cursor on it moves to the bay before it, or to none (R5, R9). -/
def State.takeOff (s : State) (b : Nat) : State :=
  { s with
    watch := s.watch.filter fun x => x ≠ b
    cursor := if s.cursor = some b then bayBefore b s.watch else s.cursor }

/-- A bay removed from the list, if it is on it, and the admission that follows (R9). -/
def State.removeWatch (s : State) (b : Nat) : State :=
  if s.watch.contains b then (s.takeOff b).enlistLowest else s

/-- A block reports that a watch cause of the bay has ended: the bay leaves the list if that was its last (R9). -/
def State.causeEnds (s : State) (b : Nat) : State := if s.hasCause b then s else s.removeWatch b

/-- The bay that follows another in a list, if any. -/
def bayAfter (b : Nat) : List Nat → Option Nat
  | [] => none
  | x :: rest => if x = b then rest.head? else bayAfter b rest

/-- The bay of the next watch slot: the one after the cursor, the first after the last, the first where the cursor is
none (R5). -/
def State.nextWatch (s : State) : Option Nat :=
  match s.cursor with
  | none => s.watch.head?
  | some c =>
    match bayAfter c s.watch with
    | some b => some b
    | none => s.watch.head?

/-- The list rebuilt after a loop reset: the bays with a cause, rising, up to 4 (R26). -/
def State.rebuildWatch (s : State) : State :=
  { s with watch := (s.addresses.filter s.hasCause).take watchCapacity }

end Sys2Proof.Machine
end

