-- ==== Sys2Proof/Machine/Queue.lean ====
section
/-!
DEFINITION. The frost queue and the selection run (04 R65 to R75).
-/
namespace Sys2Proof.Machine

/-! ## Joining and leaving (R65, R66) -/

/-- A new queue stay: both marks clear. -/
def DefrostRec.newStay (d : DefrostRec) : DefrostRec := { d with fuelBlock := false, waitingReported := false }

/-- A bay joins at the tail with the next join number (R65). -/
def State.joinQueue (s : State) (b : Nat) : State :=
  { s.modDefrost b fun d => { d.newStay with state := .queued } with
    queue := s.queue ++ [{ bay := b, entryTime := s.seconds, join := s.lastJoin + 1 }]
    lastJoin := s.lastJoin + 1 }

/-- A bay leaves the queue, which ends its queue stay (R66). -/
def State.leaveQueue (s : State) (b : Nat) : State :=
  { s.modDefrost b DefrostRec.newStay with queue := s.queue.filter fun q => q.bay ≠ b }

/-- A bay restored with its kept entry time and join number, before every entry of a later join (R66). -/
def State.restoreQueue (s : State) (b entryTime join : Nat) : State :=
  { s.modDefrost b fun d => { d.newStay with state := .queued } with
    queue := insertBy (fun x y => decide (x.join < y.join)) { bay := b, entryTime := entryTime, join := join } s.queue }

/-- The bay's level is reported to DS: a CLEAR bay at ELIGIBLE or higher and not held out joins, a queued bay at NONE
leaves for CLEAR (R65, R66). -/
def State.urgencyReported (s : State) (b : Nat) : State :=
  s.onBay b fun r =>
    match r.defrost.state with
    | .clear => if r.frost.urgency.atLeast .eligible && !s.isMarked b then s.joinQueue b else s
    | .queued =>
      if r.frost.urgency = .none then (s.leaveQueue b).modDefrost b fun d => { d with state := .clear } else s
    | .granted | .running | .stopping | .drip | .unknown => s

/-- FAU recomputes the bay's level; a change is stored and reported (03 R55). -/
def State.recomputeUrgency (s : State) (b : Nat) : State :=
  s.onBay b fun r =>
    let level := (s.thresholds r).level r.frost.debt
    if level = r.frost.urgency then s
    else (s.modFrost b fun f => { f with urgency := level }).urgencyReported b

/-! ## Selection (R69 to R74) -/

/-- DS keeps the fuel-block mark only where fuel still holds the bay (R72). -/
def fuelHolds (r : Bay) : Bool :=
  !fuelAllows r &&
    match kindNow r with
    | .engine => r.frost.urgency.atLeast .due
    | .shore => r.frost.urgency == .forced

/-- At the start of a run, the fuel-block marks of the queued bays that fuel no longer holds are cleared (R72). -/
def State.clearFuelBlocks (s : State) : State :=
  s.queue.foldl (fun t q => t.onBay q.bay fun r =>
    if r.defrost.fuelBlock && !fuelHolds r then t.modDefrost q.bay fun d => { d with fuelBlock := false } else t) s

/-- The want of a kind of grant. -/
def DefrostKind.want : DefrostKind → DefrostWant
  | .shore => .startShore
  | .engine => .startEngine

/-- A grant (R74): out of the queue with its entry kept, GRANTED, kind and want fixed, the defrost timer started, the
start check clear, a slot for a shore grant, a watch cause. -/
def State.grant (s : State) (b : Nat) (kind : DefrostKind) (withSlot : Bool) : State :=
  s.onBay b fun r =>
    let kept := (s.queue.find? fun q => q.bay = b).map fun q => (q.entryTime, q.join)
    let s := (s.leaveQueue b).modDefrost b fun d =>
      { d with state := .granted, kind := some kind, timer := .running (s.inMinutes r.settings.maxDefrost), kept := kept,
               confirmed := false, checkCount := 0 }
    let s := s.setWant b (some kind.want)
    let s := if withSlot then s.takeSlot b else s
    s.causeBegins b

/-- The grantable SHORE-kind bays in queue order, each with its level (R70). -/
def State.shoreCandidates (s : State) : List (Nat × Urgency) :=
  s.queue.filterMap fun q =>
    match s.bay? q.bay with
    | some r => if s.grantable q.bay r && kindNow r == .shore then some (q.bay, r.frost.urgency) else none
    | none => none

/-- The oldest candidate at a level. -/
def oldestAt (level : Urgency) (candidates : List (Nat × Urgency)) : Option Nat :=
  (candidates.find? fun c => c.2 = level).map Prod.fst

/-- The bay the next shore grant goes to (R70, R71). -/
def State.pickShore (s : State) : Option Nat :=
  let candidates := s.shoreCandidates
  if s.shed ≠ .normal ∨ s.shoreLimit ≤ s.slotHolders then none
  else if s.raiseDue then candidates.head?.map Prod.fst
  else (oldestAt .forced candidates).or <| (oldestAt .urgent candidates).or <| (oldestAt .due candidates).or <|
    if s.yard.only.margin < s.freeSlots then oldestAt .eligible candidates else none

/-- The raise counter after a shore grant: 0 after a raise, one more after another grant, as it stands when K is 0
(R71). -/
def State.countGrant (s : State) : State :=
  { s with
    raiseCounter := if s.raisePeriod = 0 then s.raiseCounter else if s.raiseDue then 0 else s.raiseCounter + 1 }

/-- The shore grants of a run, one at a time, at most as many as there are entries (R70). -/
def shoreGrants : Nat → State → State
  | 0, s => s
  | n + 1, s =>
    match s.pickShore with
    | none => s
    | some b => shoreGrants n (s.countGrant.grant b .shore true)

/-- The fuel-block mark set, with FUEL_BLOCKS_DEFROST when it was clear (R72). -/
def State.blockOnFuel (s : State) (b : Nat) (r : Bay) : State :=
  if r.defrost.fuelBlock then s
  else (s.modDefrost b fun d => { d with fuelBlock := true }).post .fuelBlocksDefrost b
    [.endurance r.fuel.endurance, .word r.settings.defrostReserve]

/-- The engine grant considered for one queued bay (R72). -/
def State.engineGrant (s : State) (b : Nat) : State :=
  s.onBay b fun r =>
    if s.grantable b r && kindNow r == .engine && r.frost.urgency.atLeast .due then
      if fuelAllows r then s.grant b .engine false else s.blockOnFuel b r
    else s

/-- Whether the plan fits the bay with a genset. -/
def Bay.hasGenset (r : Bay) : Bool := r.entry.genset == 1

/-- Why a forced fallback fails (R73, R207). DESIGN CHOICE: of several reasons that hold at once, the first of R73's order, so
"no genset" also where the endurance is unknown or below the reserve (log 41). -/
def waitingReason (r : Bay) : Nat :=
  if !r.hasGenset then reasonNoGenset
  else if r.fuel.endurance.isNone then reasonEnduranceUnknown
  else reasonBelowReserve

/-- FROST_FORCED_WAITING, once in a queue stay (R73). -/
def State.reportWaiting (s : State) (b : Nat) (r : Bay) : State :=
  if r.defrost.waitingReported then s
  else (s.modDefrost b fun d => { d with waitingReported := true }).post .frostForcedWaiting b
    [.byte r.frost.debt, .byte (waitingReason r)]

/-- The forced fallback considered for one queued bay (R73). -/
def State.forcedFallback (s : State) (b : Nat) : State :=
  s.onBay b fun r =>
    if s.grantable b r && kindNow r == .shore && r.frost.urgency == .forced then
      if r.hasGenset && fuelAllows r then s.grant b .engine false
      else
        let s := s.reportWaiting b r
        if r.hasGenset then s.blockOnFuel b r else s
    else s

/-- The bays in the queue, oldest first. -/
def State.queuedBays (s : State) : List Nat := s.queue.map fun q => q.bay

/-- A selection run (R69): the marks of R72, the shore grants, the engine grants, the forced fallbacks. -/
def State.select (s : State) : State :=
  let s := s.clearFuelBlocks
  let s := shoreGrants s.queue.length s
  let s := s.queuedBays.foldl State.engineGrant s
  s.queuedBays.foldl State.forcedFallback s

/-- A selection run where the bay is in the queue (R69). -/
def State.selectIfQueued (s : State) (b : Nat) : State := if s.inDefrost b .queued then s.select else s

/-- FAU recomputes the bay's level, and a queued bay's change of level, or its joining, starts a run (03 R55, R69). -/
def State.recomputeAndSelect (s : State) (b : Nat) : State :=
  let t := s.recomputeUrgency b
  let changed := ((s.bay? b).map fun r => r.frost.urgency) ≠ ((t.bay? b).map fun r => r.frost.urgency)
  if changed ∧ (s.inDefrost b .queued = true ∨ t.inDefrost b .queued = true) then t.select else t

end Sys2Proof.Machine
end

