-- ==== Sys2Proof/Machine/Shed.lean ====
section
/-!
DEFINITION. The shed logic (09 R166 to R175): assertion, release, the slots emptying, the dwell and the restart gap.
-/
namespace Sys2Proof.Machine

/-- Whether a record is an ENGINE-kind defrost GRANTED, RUNNING or STOPPING (R173). -/
def DefrostRec.engineActive (d : DefrostRec) : Bool :=
  (d.kind == some .engine) && (d.state == .granted || d.state == .running || d.state == .stopping)

/-- How many such defrosts there are. -/
def State.engineCount (s : State) : Nat := (s.bays.filter fun p => p.2.defrost.engineActive).length

/-- A fresh dwell; a dwell of 0 elapses at entry (R170). -/
def State.startDwell (s : State) : State :=
  { s with dwell := if s.yard.only.shedDwell = 0 then .spent else .running (s.inSeconds s.yard.only.shedDwell) }

/-- Entry to SHED from DRAINING (R169, R173). -/
def State.enterShed (s : State) : State :=
  { s with shed := .shed, releaseSeen := false }.startDwell.post .shedEntered 0
    [.word s.yard.only.shedDwell, .byte s.engineCount]

/-- The count reported to the shed logic when a slot has freed (R75, R169). -/
def State.shedCheck (s : State) : State :=
  if s.shed = .draining ∧ s.slotHolders = 0 then s.enterShed else s

/-- Entry to NORMAL from RESTART, with the selection run that follows (R171). -/
def State.leaveShed (s : State) : State :=
  let s := { s with shed := .normal, gapEnd := none, dwell := .absent, releaseSeen := false }
  (s.post .shedLeft 0 [.byte s.queue.length]).select

/-- Entry to RESTART; a gap of 0 expires at entry (R170, R171). -/
def State.enterRestart (s : State) : State :=
  let s := { s with shed := .restart, dwell := .absent, releaseSeen := false }
  if s.yard.only.restartGap = 0 then s.leaveShed else { s with gapEnd := some (s.inSeconds s.yard.only.restartGap) }

/-- An assertion of the filtered level (R168, R170, R171). -/
def State.shedAssert (s : State) : State :=
  match s.shed with
  | .normal => { s with shed := .draining }.select.shedCheck
  | .draining => s
  | .shed => { s with releaseSeen := false }
  | .restart => { s with shed := .shed, gapEnd := none, releaseSeen := false }.startDwell

/-- A release of the filtered level (R169, R170). -/
def State.shedRelease (s : State) : State :=
  match s.shed with
  | .normal => s
  | .draining => { s with shed := .normal }.select
  | .shed => if s.dwell = .spent then s.enterRestart else { s with releaseSeen := true }
  | .restart => s

/-- The steps of the timebase in the 500 ms filter (R166). -/
def filterSteps : Nat := 20

/-- The line takes a level: the filter timer starts against the filtered level or stops (R166). -/
def State.shedLineTakes (s : State) (level : Bool) : State :=
  if level = s.shedLine then s
  else { s with shedLine := level, filterEnd := if level = s.filtered then none else some (s.now + filterSteps) }

/-- The filter timer reaches 500 ms with the line at the new level (R166). -/
def State.filterTakes (s : State) : State :=
  let s := { s with filtered := s.shedLine, filterEnd := none }
  if s.filtered then s.shedAssert else s.shedRelease

/-- The dwell timer expires (R170). -/
def State.dwellElapses (s : State) : State :=
  let s := { s with dwell := .spent }
  if s.shed = .shed ∧ s.releaseSeen = true then s.enterRestart else s

end Sys2Proof.Machine
end

