-- ==== Sys2Proof/Machine/Scheduler.lean ====
section
/-!
DEFINITION. The per-bay defrost state machine of DS (04 R76 to R90), with FAU's part in each outcome (03 R52, R56 to
R59).
-/
namespace Sys2Proof.Machine

/-! ## FAU's notices -/

/-- A normal end: debt 0, count and mark cleared, level recomputed (03 R52, R57). -/
def State.noticeNormalEnd (s : State) (b : Nat) : State :=
  (s.modFrost b fun f => { f with debt := 0, intervalCount := 0, overdue := false }).recomputeUrgency b

/-- A stopped end: count and mark cleared, the debt as it stands (03 R52, R59). -/
def State.noticeStoppedEnd (s : State) (b : Nat) : State :=
  s.modFrost b fun f => { f with intervalCount := 0, overdue := false }

/-- A cancel in RUNNING: the debt halved, the level recomputed (03 R58). -/
def State.noticeCancelled (s : State) (b : Nat) : State :=
  (s.modFrost b fun f => { f with debt := f.debt / 2 }).recomputeUrgency b

/-! ## Entry to DRIP and what follows it -/

/-- Entry to DRIP from any state: the want cleared, the slot freed, the defrost timer absent, the kept entry and the
start check discarded, the drip timer started with the DT resolved now, the watch cause ended (R78, R80, R81, R83, R84,
R88). -/
def State.toDrip (s : State) (b : Nat) : State :=
  s.onBay b fun r =>
    let s := (s.setWant b none).clearSlot b
    let s := s.modDefrost b fun d =>
      { d with state := .drip, kind := none, timer := .absent, kept := none, confirmed := false, checkCount := 0,
               dripEnd := some (s.inMinutes r.settings.dripTime) }
    s.causeEnds b

/-- The drip timer expires: the bay joins the queue at the tail, or becomes CLEAR (R85). -/
def State.endDrip (s : State) (b : Nat) : State :=
  s.onBay b fun r =>
    let s := s.modDefrost b fun d => { d with dripEnd := none, state := .clear }
    if r.frost.urgency.atLeast .eligible && !s.isMarked b then s.joinQueue b else s

/-- A drip time of 0 expires at once on entry, after the outcome's own effects (R85; log 15). -/
def State.endShortDrip (s : State) (b : Nat) : State :=
  s.onBay b fun r => if r.defrost.state = .drip ∧ r.settings.dripTime = 0 then s.endDrip b else s

/-- What follows an outcome: a drip of 0 ends, the shed logic hears of a slot freed, and a run follows where a slot
freed or the bay joined the queue (R69, R75, R85). -/
def State.afterOutcome (s : State) (b : Nat) (hadSlot : Bool) : State :=
  let s := s.endShortDrip b
  if hadSlot then s.shedCheck.select else s.selectIfQueued b

/-- The detail of a DEFROST_ event: kind and debt, and the reason where the rule names one (04 before R76, R207). -/
def defrostDetail (r : Bay) (reason : Option Nat) : List Item :=
  [.byte (kindCode r.defrost.kind), .byte r.frost.debt] ++ (reason.map Item.byte).toList

/-! ## Outcomes -/

/-- A start failure (R78). -/
def State.startFails (s : State) (b reason : Nat) : State :=
  s.onBay b fun r =>
    let s := (s.toDrip b).post .defrostStartFailed b (defrostDetail r (some reason))
    let count := min (r.defrost.startFailures + 1) 3
    let s := s.modDefrost b fun d => { d with startFailures := count, refusal := d.refusal || decide (count = 3) }
    let s := if count = 3 then s.post .defrostRefused b (defrostDetail r none) else s
    s.afterOutcome b r.defrost.slot

/-- A grant withdrawn: back to its place in the queue, or to CLEAR at NONE (R66, R79). -/
def State.withdraw (s : State) (b : Nat) : State :=
  s.onBay b fun r =>
    let hadSlot := r.defrost.slot
    let s := (s.setWant b none).clearSlot b
    let s := s.modDefrost b fun d =>
      { d with kind := none, timer := .absent, kept := none, confirmed := false, checkCount := 0, state := .clear }
    let s :=
      if r.frost.urgency = .none then s
      else match r.defrost.kept with
        | some (entryTime, join) => s.restoreQueue b entryTime join
        | none => s.joinQueue b
    let s := s.causeEnds b
    if hadSlot then s.shedCheck.select else s.selectIfQueued b

/-- A normal end (R80). -/
def State.endsNormally (s : State) (b : Nat) : State :=
  s.onBay b fun r =>
    let s := (s.toDrip b).modDefrost b fun d => { d with startFailures := 0 }
    let s := s.post .defrostEnded b (defrostDetail r (some reasonNormal))
    (s.noticeNormalEnd b).afterOutcome b r.defrost.slot

/-- A stopped end (R84). -/
def State.endsStopped (s : State) (b : Nat) : State :=
  s.onBay b fun r =>
    let s := (s.toDrip b).post .defrostEnded b (defrostDetail r (some reasonStopped))
    (s.noticeStoppedEnd b).afterOutcome b r.defrost.slot

/-- An abandonment (R81, R84, R88). -/
def State.abandon (s : State) (b reason : Nat) : State :=
  s.onBay b fun r =>
    let s := (s.toDrip b).post .defrostAbandoned b (defrostDetail r (some reason))
    s.afterOutcome b r.defrost.slot

/-- The refusal mark cleared and the start-failure count set to 0 (R78; log 17). -/
def State.clearRefusal (s : State) (b : Nat) : State :=
  s.modDefrost b fun d => { d with refusal := false, startFailures := 0 }

/-- A GRANTED bay is seen in DEFROST (R77). -/
def State.starts (s : State) (b : Nat) : State :=
  s.onBay b fun r =>
    let s := (s.setWant b none).clearRefusal b
    let s := s.modDefrost b fun d => { d with state := .running, kept := none, confirmed := false, checkCount := 0 }
    (s.post .defrostStarted b (defrostDetail r (some reasonGranted))).causeEnds b

/-- The counted replies after which a start check fails (R77). -/
def startCheckLimit : Nat := 2

/-- A counted reply of the start check (R77, R78). -/
def State.countCheck (s : State) (b : Nat) : State :=
  s.onBay b fun r =>
    if r.defrost.confirmed then
      if startCheckLimit ≤ r.defrost.checkCount + 1 then s.startFails b reasonCheckFailed
      else s.modDefrost b fun d => { d with checkCount := d.checkCount + 1 }
    else s

/-- A defrost the unit began by itself, on a bay in CLEAR, QUEUED or DRIP (R86). In HALT, where the table has no row for
SHORE, it is taken as in LISTEN (log 19). -/
def State.unplanned (s : State) (b : Nat) : State :=
  s.onBay b fun r =>
    let kind := kindNow r
    let s := (s.leaveQueue b).clearRefusal b
    let s := s.modDefrost b fun d =>
      { d with kind := some kind, timer := .running (s.inMinutes r.settings.maxDefrost), dripEnd := none, state := .running }
    let detail := [Item.byte (kindCode (some kind)), .byte r.frost.debt]
    match kind with
    | .engine => s.post .defrostStarted b (detail ++ [.byte reasonUnplanned])
    | .shore =>
      if s.slotToAdopt b then (s.takeSlot b).post .defrostStarted b (detail ++ [.byte reasonUnplanned])
      else if s.mode = .run ∨ s.mode = .fallback then
        ((((s.modDefrost b fun d => { d with state := .stopping }).setWant b (some .stop)).causeBegins b).post
          .defrostUnplannedStopped b detail)
      else s.post .defrostStarted b (detail ++ [.byte reasonUnplanned])

/-- An UNKNOWN record seen in DEFROST: RUNNING again, a want of STOP cleared (R88). -/
def State.resolvesRunning (s : State) (b : Nat) : State :=
  ((s.setWant b none).clearRefusal b).modDefrost b fun d => { d with state := .running }

/-! ## Replies (R76) -/

/-- The rule of the bay's defrost state on a reply that showed a mode (R77 to R81, R84, R86, R88). The door reading is
the one stored from the same reply. DESIGN CHOICE: the reply of the slot still in progress at entry to HALT is taken like
any other, so that in HALT too it turns an UNKNOWN record into RUNNING (log 38; for an unplanned defrost log 19). -/
def State.modeShown (s : State) (b : Nat) (mode : UnitMode) : State :=
  s.onBay b fun r =>
    match r.defrost.state with
    | .granted =>
      match mode with
      | .defrost => s.starts b
      | .off | .alarm => s.withdraw b
      | .cool | .heat | .null => if r.readings.door = .opened then s.withdraw b else s.countCheck b
    | .running =>
      match mode with
      | .defrost => s.clearRefusal b
      | .alarm => s.abandon b reasonUnitAlarm
      | .cool | .heat | .null | .off => s.endsNormally b
    | .stopping =>
      match mode with
      | .defrost => s.clearRefusal b
      | .cool | .heat | .null | .off | .alarm => s.endsStopped b
    | .unknown =>
      match mode with
      | .defrost => s.resolvesRunning b
      | .cool | .heat | .null | .off | .alarm => s.endsNormally b
    | .clear | .queued | .drip =>
      match mode with
      | .defrost => s.unplanned b
      | .cool | .heat | .null | .off | .alarm => s

/-- The command holder's outcome on a GRANTED bay (R76): a confirmed start sets the confirmed mark, a start not taken is
a start failure. -/
def State.holderOutcome (s : State) (b : Nat) (o : HolderOutcome) : State :=
  match o with
  | .confirmed c => if c.isStart then s.modDefrost b fun d => { d with confirmed := true } else s
  | .startNotTaken => s.startFails b reasonNotTaken
  | .noChange => s
  | .adopted => s

/-- Whether a reply leaves the bay on the grant it held: GRANTED, and neither R77 nor R79 moves it out on the mode and the
door reading, nor the start check fails. -/
def Bay.keepsGrant (r : Bay) (mode : Option UnitMode) : Bool :=
  (r.defrost.state == .granted) &&
    match mode with
    | none => true
    | some .defrost | some .off | some .alarm => false
    | some .cool | some .heat | some .null =>
      !(r.readings.door == .opened) && !(r.defrost.confirmed && decide (startCheckLimit ≤ r.defrost.checkCount + 1))

/-- The mode rule, once for a reply that showed a mode; a reply that showed none moves no defrost state (R76). -/
def State.modeTaken (s : State) (b : Nat) : Option UnitMode → State
  | some m => s.modeShown b m
  | none => s

/-- DS takes a reply: the mode rule, then the holder's outcome where the bay is still on the grant it held, then a run for
a queued bay (R69, R76). A bay granted anew within the reply is not the one whose command the outcome concerns. -/
def State.schedulerReply (s : State) (b : Nat) (mode : Option UnitMode) (o : HolderOutcome) : State :=
  s.onBay b fun r =>
    let t := s.modeTaken b mode
    let t := if r.keepsGrant mode then t.holderOutcome b o else t
    if (r.defrost.state == .queued) || t.inDefrost b .queued then t.select else t

/-- LC reports the bay's entry into LOST: a STOPPING bay with its timer spent is abandoned (R84). -/
def State.schedulerLost (s : State) (b : Nat) : State :=
  s.onBay b fun r =>
    if r.defrost.state = .stopping ∧ r.defrost.timer = .spent then s.abandon b reasonLostWhileStopping else s

/-! ## Timers -/

/-- A RUNNING bay that is not LOST overruns (R82). -/
def State.overruns (s : State) (b : Nat) : State :=
  s.onBay b fun r =>
    let s := (s.modDefrost b fun d => { d with timer := .spent, state := .stopping }).setWant b (some .stop)
    (s.causeBegins b).post .defrostOverrun b (defrostDetail r none)

/-- The defrost timer expires (R78, R81, R82, R84, R88). -/
def State.defrostTimerExpires (s : State) (b : Nat) : State :=
  s.onBay b fun r =>
    match r.defrost.state with
    | .granted => s.startFails b reasonTimerWhileGranted
    | .running => if r.loop.presence = .lost then s.abandon b reasonLostAtLimit else s.overruns b
    | .stopping =>
      if r.loop.presence = .lost then s.abandon b reasonLostWhileStopping
      else s.modDefrost b fun d => { d with timer := .spent }
    | .unknown => s.abandon b reasonUnseenAtLimit
    | .clear | .queued | .drip => s

/-- The drip timer expires, with the run a join starts (R69, R85). -/
def State.dripTimerExpires (s : State) (b : Nat) : State := (s.endDrip b).selectIfQueued b

/-! ## Cancel (R83) -/

/-- DEFROST CANCEL acts on the defrost state it finds; `false` is WRONG_STATE. -/
def State.cancel (s : State) (b : Nat) : State × Bool :=
  match s.bay? b with
  | none => (s, false)
  | some r =>
    match r.defrost.state with
    | .queued => (((s.leaveQueue b).toDrip b).afterOutcome b r.defrost.slot, true)
    | .granted => ((s.toDrip b).afterOutcome b r.defrost.slot, true)
    | .running =>
      let t := ((s.modDefrost b fun d => { d with state := .stopping }).setWant b (some .stop)).causeBegins b
      (t.noticeCancelled b, true)
    | .clear | .stopping | .drip | .unknown => (s, false)

/-! ## Loop mode changes (R87) -/

/-- Every GRANTED bay withdrawn. -/
def State.withdrawAll (s : State) : State :=
  s.overBays fun b t => if t.inDefrost b .granted then t.withdraw b else t

/-- A RUNNING or STOPPING bay becomes UNKNOWN; an entry with the timer spent is abandoned at once (R87, R88). -/
def State.toUnknown (s : State) (b : Nat) : State :=
  s.onBay b fun r =>
    if r.defrost.state = .running ∨ r.defrost.state = .stopping then
      let s := (s.modDefrost b fun d => { d with state := .unknown }).causeEnds b
      if r.defrost.timer = .spent then s.abandon b reasonUnseenAtLimit else s
    else s

/-- Every RUNNING and STOPPING bay becomes UNKNOWN. -/
def State.allToUnknown (s : State) : State := s.overBays fun b t => t.toUnknown b

/-- FAU recomputes every bay's level, reporting each (03 R55). -/
def State.recomputeAll (s : State) : State := s.overBays fun b t => t.recomputeUrgency b

/-- The defrost records on entry to the mode in force: withdrawals, and UNKNOWN in HALT (R87). -/
def State.recordsForMode (s : State) : State :=
  match s.mode with
  | .listen => s.withdrawAll
  | .halt => s.withdrawAll.allToUnknown
  | .run => s
  | .fallback => s

/-- DS acts on a change of the loop mode, the new mode already in force (R87; logs 10, 11, 13). -/
def State.schedulerMode (s : State) (old : LoopMode) : State :=
  let s := s.recordsForMode
  let levels := decide (old = .fallback) || decide (s.mode = .fallback)
  let s := if levels then s.recomputeAll else s
  if levels || decide (s.mode = .run) then s.select else s

end Sys2Proof.Machine
end

