-- ==== Sys2Proof/Machine/Frost.lean ====
section
/-!
DEFINITION. Frost accrual: door seconds and the expiry of the accrual timer (03 R44 to R53), and the office's request
(03 R56).
-/
namespace Sys2Proof.Machine

/-- The most seconds the accumulator holds (R45). -/
def maxDoorSeconds : Nat := 3600

/-- The second that an expiry counted in advance is over (R45; log 24). -/
def FrostRec.secondOver (f : FrostRec) : FrostRec := { f with secondCounted := false }

/-- A door-open second reported to FAU: it counts in the interval in progress, unless an expiry has already counted
that second (R45). -/
def FrostRec.doorSecond (f : FrostRec) : FrostRec :=
  if f.secondCounted then f.secondOver
  else { f with doorSeconds := min (f.doorSeconds + 1) maxDoorSeconds }

/-- The accumulator as an expiry finds it: the second in progress counts too while the door reads OPEN (R45). -/
def secondsAtExpiry (r : Bay) : Nat :=
  if r.readings.door = .opened then min (r.frost.doorSeconds + 1) maxDoorSeconds else r.frost.doorSeconds

/-- The addition of an accruing expiry (R47, R48). -/
def accrualAdd (r : Bay) : Nat :=
  r.settings.base + doorTerm r.settings (secondsAtExpiry r)
    + coilTerm r.settings r.loop.presence r.readings.coil r.readings.returnAir

/-- The interval count after an accruing expiry (R52). -/
def countAtExpiry (r : Bay) : Nat := min (r.frost.intervalCount + 1) 255

/-- Whether the maximum-interval check fires (R53). -/
def overdueFires (r : Bay) : Bool :=
  decide (r.settings.maxIntervals ≠ 0) && decide (r.settings.maxIntervals ≤ countAtExpiry r) && !r.frost.overdue

/-- The debt after an accruing expiry: the addition, then the maximum-interval check (R49, R53). -/
def State.debtAtExpiry (s : State) (r : Bay) : Nat :=
  let debt := addDebt r.frost.debt (accrualAdd r)
  if overdueFires r then max debt (s.thresholds r).forced else debt

/-- The accumulator and the timer started afresh (R44, R45). -/
def State.restartInterval (s : State) (b : Nat) (r : Bay) : State :=
  s.modFrost b fun f =>
    { f with doorSeconds := 0, secondCounted := decide (r.readings.door = .opened),
             accrualEnd := s.inMinutes r.settings.ai }

/-- An accruing expiry (R46). -/
def State.accrues (s : State) (b : Nat) (r : Bay) : State :=
  let debt := s.debtAtExpiry r
  let count := countAtExpiry r
  let t := s.modFrost b fun f =>
    { f with debt := debt, intervalCount := count, overdue := f.overdue || overdueFires r }
  let t := if overdueFires r then t.post .frostOverdue b [.byte debt, .byte count] else t
  (t.restartInterval b r).recomputeAndSelect b

/-- The accrual timer expires: accruing in CLEAR, QUEUED and DRIP, suspended in the other states (R46, R50). -/
def State.accrualExpires (s : State) (b : Nat) : State :=
  s.onBay b fun r =>
    match r.defrost.state with
    | .clear | .queued | .drip => s.accrues b r
    | .granted | .running | .stopping | .unknown => s.restartInterval b r

/-- DEFROST REQUEST on a bay of the plan: the debt raised to the DUE threshold in force (R56), then the refusal mark
cleared, which starts a run on a queued bay (04 R78, 10 R193). -/
def State.requestDefrost (s : State) (b : Nat) : State :=
  s.onBay b fun r =>
    let s := s.modFrost b fun f => { f with debt := max f.debt (s.thresholds r).due }
    ((s.recomputeAndSelect b).clearRefusal b).selectIfQueued b

end Sys2Proof.Machine
end

