-- ==== Sys2Proof/WellFormed.lean ====
section
/-!
DEFINITION. Which commands can come: what the frames and the plan allow as operands. `exec` is total on ill-formed
commands too (log 31).
-/
namespace Sys2Proof

/-- A bay address (00, Conventions). -/
def bayOk (bay : Nat) : Bool := decide (1 ≤ bay ∧ bay ≤ 127)

/-- The argument bytes of a request frame: its length byte is at most 128 and counts three more bytes (11 R205). -/
def argsOk (args : List Byte) : Bool := decide (args.length ≤ 125)

/-- A code that no request has (11 R205). -/
def codeUnknown (code : Byte) : Bool := decide (code.toNat = 0 ∨ 25 < code.toNat)

/-- A reply that completes has its fifteen bytes (11 R204); an expiry names a bay; a request's arguments fit a frame. -/
def Instr.wf : Instr → Bool
  | .replyReceived bytes => decide (15 ≤ bytes.length)
  | .pollSlotEnd => true
  | .doorOpenSecond bay => bayOk bay
  | .accrualExpiry bay => bayOk bay
  | .defrostTimerExpiry bay => bayOk bay
  | .dripTimerExpiry bay => bayOk bay
  | .graceTimerExpiry bay => bayOk bay
  | .leaseExpiry bay => bayOk bay
  | .yardClockAdvance => true
  | .shedLineChange _ => true
  | .shedFilterExpiry => true
  | .dwellTimerExpiry => true
  | .restartGapExpiry => true
  | .silenceTimerExpiry => true
  | .badFrame _ => true
  | .unknownRequest _ code => codeUnknown code
  | .noByteTransaction _ => true
  | .attnSet _ args => argsOk args
  | .bayRead _ args => argsOk args
  | .beaconSet _ args => argsOk args
  | .claim _ args => argsOk args
  | .claimRelease _ args => argsOk args
  | .claimRenew _ args => argsOk args
  | .clockSet _ args => argsOk args
  | .defrostCancel _ args => argsOk args
  | .defrostRequest _ args => argsOk args
  | .departureSet _ args => argsOk args
  | .doorList _ args => argsOk args
  | .eventFetch _ args => argsOk args
  | .fuelList _ args => argsOk args
  | .loopReset _ args => argsOk args
  | .mirrorSet _ args => argsOk args
  | .modeSet _ args => argsOk args
  | .planCommit _ args => argsOk args
  | .queueRead _ args => argsOk args
  | .resume _ args => argsOk args
  | .stageBay _ args => argsOk args
  | .stageClear _ args => argsOk args
  | .stageDrop _ args => argsOk args
  | .stageRow _ args => argsOk args
  | .stageYard _ args => argsOk args
  | .status _ args => argsOk args
  | .fullReset => true
  | .transactionBegin _ => true

end Sys2Proof
end

