-- ==== Sys2Proof/Decode.lean ====
section
/-!
DEFINITION. From the bytes of one SPI transaction to a command (10 R183, R184 checks 1 and 2; 11 R203, R205), and the
request frame of a request.
-/
namespace Sys2Proof

/-- The request codes 1 to 25 (11 R205). -/
def Request.code : Request → Byte
  | .attnSet => 1
  | .bayRead => 2
  | .beaconSet => 3
  | .claim => 4
  | .claimRelease => 5
  | .claimRenew => 6
  | .clockSet => 7
  | .defrostCancel => 8
  | .defrostRequest => 9
  | .departureSet => 10
  | .doorList => 11
  | .eventFetch => 12
  | .fuelList => 13
  | .loopReset => 14
  | .mirrorSet => 15
  | .modeSet => 16
  | .planCommit => 17
  | .queueRead => 18
  | .resume => 19
  | .stageBay => 20
  | .stageClear => 21
  | .stageDrop => 22
  | .stageRow => 23
  | .stageYard => 24
  | .status => 25

/-- The requests in the order of their codes. -/
def Request.all : List Request :=
  [.attnSet, .bayRead, .beaconSet, .claim, .claimRelease, .claimRenew, .clockSet, .defrostCancel, .defrostRequest,
   .departureSet, .doorList, .eventFetch, .fuelList, .loopReset, .mirrorSet, .modeSet, .planCommit, .queueRead,
   .resume, .stageBay, .stageClear, .stageDrop, .stageRow, .stageYard, .status]

/-- The request a code names, if any. -/
def Request.ofCode (code : Byte) : Option Request := Request.all.find? fun r => r.code == code

/-- The command that a request sent on a port with these argument bytes is. -/
def Request.toInstr : Request → Port → List Byte → Instr
  | .attnSet => .attnSet
  | .bayRead => .bayRead
  | .beaconSet => .beaconSet
  | .claim => .claim
  | .claimRelease => .claimRelease
  | .claimRenew => .claimRenew
  | .clockSet => .clockSet
  | .defrostCancel => .defrostCancel
  | .defrostRequest => .defrostRequest
  | .departureSet => .departureSet
  | .doorList => .doorList
  | .eventFetch => .eventFetch
  | .fuelList => .fuelList
  | .loopReset => .loopReset
  | .mirrorSet => .mirrorSet
  | .modeSet => .modeSet
  | .planCommit => .planCommit
  | .queueRead => .queueRead
  | .resume => .resume
  | .stageBay => .stageBay
  | .stageClear => .stageClear
  | .stageDrop => .stageDrop
  | .stageRow => .stageRow
  | .stageYard => .stageYard
  | .status => .status

/-- Check 1 of R184: the length byte lies from 3 to 128, that many bytes came, and they pass the check (R203, R205). -/
def frameOk (bytes : List Byte) : Bool :=
  let n := (bytes.headD 0).toNat
  decide (3 ≤ n) && decide (n ≤ 128) && decide (n ≤ bytes.length) && checkOk (bytes.take n)

/-- The argument bytes of a frame of `n` bytes: those between the request code and the check byte (R205). -/
def frameArgs (bytes : List Byte) : List Byte :=
  ((bytes.take (bytes.headD 0).toNat).drop 2).dropLast

/-- What a transaction that shifted in these bytes is as a command. Bytes after the frame's last are ignored; a
transaction of no whole byte takes no request (R183). -/
def decodeTransaction (port : Port) (bytes : List Byte) : Instr :=
  if bytes.isEmpty then .noByteTransaction port
  else if frameOk bytes then
    match Request.ofCode (bytes.getD 1 0) with
    | some r => r.toInstr port (frameArgs bytes)
    | none => .unknownRequest port (bytes.getD 1 0)
  else .badFrame port

/-- The request frame of a request: length byte, request code, arguments, check byte (R205). -/
def encodeRequest (r : Request) (args : List Byte) : List Byte :=
  withCheck (byteOf (args.length + 3) :: r.code :: args)

/-- The command that a word spells by the table's bits. No row of spec/opcode_table.json gives bits, so no word spells
one. -/
def decodeTableWord (_nbits _w : Nat) : Option Instr := none

end Sys2Proof
end

