-- ==== Sys2Proof/Machine/Doors.lean ====
section
/-!
DEFINITION. Door checks: readings, the grace timer, claims, beacons, door-open seconds, the door list (06).
-/
namespace Sys2Proof.Machine

/-- Whether auto-beacon is on for the bay. -/
def Bay.autoBeacon (r : Bay) : Bool := r.settings.autoBeacon == 1

/-- The grace timer started, with the door grace resolved now (R114). -/
def State.graceStart (s : State) (r : Bay) : Option Nat := some (s.inSeconds r.settings.doorGrace)

/-- The beacon set OFF and its mark cleared (R121). -/
def DoorRec.beaconOff (d : DoorRec) : DoorRec := { d with beaconWanted := false, autoRaised := false }

/-- A reading of CLOSED (R112, R117, R120, R121). -/
def State.doorCloses (s : State) (b : Nat) (r : Bay) : State :=
  let shut := fun (d : DoorRec) => { d with state := DoorState.shut, graceEnd := none, listEntry := none, openRun := 0 }
  match r.door.state with
  | .ajar =>
    let s := s.post .doorShut b [.word r.door.openRun, .byte (flagBit 0 (s.claimed b))]
    (s.modDoor b fun d => if r.autoBeacon then (shut d).beaconOff else shut d).causeEnds b
  | .switchFault => s.modDoor b fun d => if r.autoBeacon && r.door.autoRaised then (shut d).beaconOff else shut d
  | .openTiming => (s.modDoor b shut).causeEnds b
  | .shut => s.modDoor b shut
  | .openAttended => s.modDoor b shut

/-- A reading of OPEN: SHUT and SWITCH_FAULT are left, for OPEN_ATTENDED under a claim and for OPEN_TIMING without one
(R112). -/
def State.doorOpens (s : State) (b : Nat) (r : Bay) : State :=
  match r.door.state with
  | .shut | .switchFault =>
    if s.claimed b then s.modDoor b fun d => { d with state := .openAttended, listEntry := none }
    else
      (s.modDoor b fun d => { d with state := .openTiming, listEntry := none, graceEnd := s.graceStart r }).causeBegins b
  | .openAttended | .openTiming | .ajar => s

/-- A switch-fault report (R113). -/
def State.switchFaults (s : State) (b : Nat) (r : Bay) : State :=
  let s := s.modDoor b fun d => { d with state := .switchFault, graceEnd := none, listEntry := some s.seconds }
  (s.post .doorSwitchFault b [.byte r.door.state.code, .word r.door.openRun]).causeEnds b

/-- DCU takes the door reading of a valid reply, with a switch-fault report when BT makes one (R112, R113). -/
def State.doorReading (s : State) (b : Nat) (report : Bool) : State :=
  s.onBay b fun r =>
    match r.readings.door with
    | .closed => s.doorCloses b r
    | .opened => s.doorOpens b r
    | .unknown => if report then s.switchFaults b r else s

/-- The grace timer expires on an OPEN_TIMING bay (R114, R121). -/
def State.graceExpires (s : State) (b : Nat) : State :=
  s.onBay b fun r =>
    if r.door.state = .openTiming then
      let wanted := r.autoBeacon || r.door.beaconWanted
      let s := s.modDoor b fun d =>
        { d with state := .ajar, graceEnd := none, listEntry := some s.seconds, beaconWanted := wanted,
                 autoRaised := r.autoBeacon || d.autoRaised }
      s.post .doorAjar b [.word r.door.openRun, .byte (beaconCode wanted)]
    else s

/-- A claim granted on the bay (R115). -/
def State.doorClaimed (s : State) (b : Nat) : State :=
  s.onBay b fun r =>
    match r.door.state with
    | .openTiming => (s.modDoor b fun d => { d with state := .openAttended, graceEnd := none }).causeEnds b
    | .shut | .openAttended | .ajar | .switchFault => s

/-- A claim on the bay ended (R116). -/
def State.doorUnclaimed (s : State) (b : Nat) : State :=
  s.onBay b fun r =>
    match r.door.state with
    | .openAttended =>
      (s.modDoor b fun d => { d with state := .openTiming, graceEnd := s.graceStart r }).causeBegins b
    | .shut | .openTiming | .ajar | .switchFault => s

/-- The longest open run (R120). -/
def maxOpenRun : Nat := 65535

/-- The open run raised by a door-open second (R120). -/
def DoorRec.openSecond (d : DoorRec) : DoorRec := { d with openRun := min (d.openRun + 1) maxOpenRun }

/-- A confirmed beacon command sets the confirmed state (R121). -/
def State.beaconConfirmed (s : State) (b : Nat) (c : LoopCmd) : State :=
  match c with
  | .beaconOn => s.modDoor b fun d => { d with beaconConfirmed := some true }
  | .beaconOff => s.modDoor b fun d => { d with beaconConfirmed := some false }
  | .startShore | .startEngine | .stop => s

/-! ## The door list (R123) -/

/-- Whether a bay belongs on the door list. -/
def State.onDoorList (s : State) (b : Nat) (r : Bay) : Bool :=
  ((r.door.state == .ajar) && !s.claimed b) || (r.door.state == .switchFault)

/-- Whether a bay stands before another: the older list entry, then the lower address. -/
def doorBefore (x y : Nat × Bay) : Bool :=
  let at_ := fun (p : Nat × Bay) => p.2.door.listEntry.getD 0
  decide (at_ x < at_ y) || (decide (at_ x = at_ y) && decide (x.1 < y.1))

/-- The door list. -/
def State.doorList (s : State) : List (Nat × Bay) := sortBy doorBefore (s.bays.filter fun p => s.onDoorList p.1 p.2)

end Sys2Proof.Machine
end

