-- ==== Sys2Proof/Machine/Fuel.lean ====
section
/-!
DEFINITION. Fuel endurance: the recomputation, the fuel state's events, the departure check, fill reports and the fuel
list (05).
-/
namespace Sys2Proof.Machine

/-! ## Endurance and fuel state (R92 to R98) -/

/-- The largest endurance (R94). -/
def maxEndurance : Nat := 65535

/-- Endurance, ESTIMATED and SATURATED after a recomputation (R93, R94). -/
def Bay.recomputed (r : Bay) : FuelRec :=
  let estimated := decide (r.readings.burnRate = 0)
  match r.readings.fuelLevel with
  | none => { r.fuel with endurance := none, estimated := estimated, saturated := false }
  | some l =>
    let q := enduranceQuotient r.settings l r.readings.burnRate
    { r.fuel with endurance := some (min q maxEndurance), estimated := estimated, saturated := decide (maxEndurance < q) }

/-- The event of a new fuel state (R97). -/
def FuelState.event : FuelState → EventKind
  | .unknown => .fuelUnknown
  | .critical => .fuelCritical
  | .low => .fuelLow
  | .ok => .fuelRecovered

/-- ESTIMATED and SATURATED as a set of flags (11 R207). -/
def FuelRec.flags (f : FuelRec) : Nat := flagBit 0 f.estimated + flagBit 1 f.saturated

/-- The fuel state evaluated from the state held and the endurance; a change posts its event (R96, R97). -/
def State.evaluateFuel (s : State) (b : Nat) : State :=
  s.onBay b fun r =>
    let new := fuelGrade r.settings r.fuel.state r.fuel.endurance
    if new = r.fuel.state then s
    else (s.modFuel b fun f => { f with state := new }).post new.event b
      [.endurance r.fuel.endurance, .level r.readings.fuelLevel, .byte r.fuel.state.code, .byte r.fuel.flags]

/-! ## Departure (R99, R100) -/

/-- The need and the departure of a bay whose departure check is made, with its endurance: the four conditions of R99. -/
def State.departureTerms (s : State) (r : Bay) : Option (Nat × Nat × Nat) :=
  match r.entry.departure, s.clock, r.readings.sourceInUse, r.fuel.endurance with
  | some d, some c, .engine, some e => some (e, departureNeed r.settings d c, d)
  | _, _, _, _ => none

/-- The departure check: the SHORT flag follows it, and FUEL_SHORT is posted when the flag goes from clear to set
(R100). -/
def State.departureCheck (s : State) (b : Nat) : State :=
  s.onBay b fun r =>
    match s.departureTerms r with
    | some (e, need, d) =>
      if e < need then
        let t := s.modFuel b fun f => { f with short := true }
        if r.fuel.short then t else t.post .fuelShort b [.endurance (some e), .need need, .minute d]
      else s.modFuel b fun f => { f with short := false }
    | none => s.modFuel b fun f => { f with short := false }

/-- The departure checks of every bay with a departure time (R100). -/
def State.departureChecks (s : State) : State :=
  s.overBays fun b t => t.onBay b fun r => if r.entry.departure.isSome then t.departureCheck b else t

/-- A recomputation: the endurance, then the fuel state unless the bay is LOST, then the departure check (R92, R98). -/
def State.recomputeFuel (s : State) (b : Nat) : State :=
  s.onBay b fun r =>
    let s := s.modFuel b fun _ => r.recomputed
    let s := if r.loop.presence = .lost then s else s.evaluateFuel b
    s.departureCheck b

/-! ## Fills (R103 to R105) -/

/-- The first fresh level under a FUEL claim becomes its fill-start level (R103). -/
def State.captureFill (s : State) (b : Nat) (fresh : Bool) : State :=
  match s.claimOf b, s.bay? b with
  | some c, some r =>
    if fresh && (c.holder == .fuel) && c.fillStart.isNone then
      { s with claims := mapKey b (fun c => { c with fillStart := r.readings.fuelLevel }) s.claims }
    else s
  | _, _ => s

/-- The litres added between two levels of a tank; unknown where a level is (R104). -/
def litresAdded (capacity : Nat) : Option Nat → Option Nat → Option Nat
  | some start, some stop => some ((stop - start) * capacity / 100)
  | _, _ => none

/-- The figures of a fill: the litres, the start level, the end level. -/
structure Fill where
  litres : Option Nat
  start : Option Nat
  stop : Option Nat
  deriving DecidableEq, Repr

/-- The fill of a FUEL claim that ends now (R104). -/
def State.fillOf (s : State) (b : Nat) (c : Claim) : Fill :=
  match s.bay? b with
  | none => ⟨none, c.fillStart, none⟩
  | some r => ⟨litresAdded r.settings.capacity c.fillStart r.readings.fuelLevel, c.fillStart, r.readings.fuelLevel⟩

/-- FILL_REPORTED (R104). -/
def State.reportFill (s : State) (b : Nat) (f : Fill) (way : Nat) : State :=
  s.post .fillReported b [.litres f.litres, .level f.start, .level f.stop, .byte way]

/-! ## The fuel list (R106 to R108) -/

/-- Whether a bay belongs on the fuel list (R106). -/
def Bay.onFuelList (r : Bay) : Bool :=
  (r.fuel.state == .critical) || (r.fuel.state == .low) || r.fuel.short || r.defrost.fuelBlock

/-- Whether a bay stands before another on the fuel list: CRITICAL first, then by endurance with UNKNOWN last, then by
address (R107). -/
def fuelBefore (x y : Nat × Bay) : Bool :=
  let group := fun (p : Nat × Bay) => if p.2.fuel.state = .critical then 0 else 1
  let level := fun (p : Nat × Bay) => p.2.fuel.endurance.getD (maxEndurance + 1)
  decide (group x < group y) ||
    (decide (group x = group y) &&
      (decide (level x < level y) || (decide (level x = level y) && decide (x.1 < y.1))))

/-- The fuel list (R107). -/
def State.fuelList (s : State) : List (Nat × Bay) := sortBy fuelBefore (s.bays.filter fun p => p.2.onFuelList)

end Sys2Proof.Machine
end

