-- ==== Sys2Proof/Machine/Claims.lean ====
section
/-!
DEFINITION. Work claims: taking, renewing and ending one (07).
-/
namespace Sys2Proof.Machine

/-- The most claims a port may hold, and the most records of the table (R127). -/
def portClaimLimit : Nat := 12
def claimTableLimit : Nat := 32

/-- The longest lease argument (R128). -/
def maxLease : Nat := 240

/-- The lease length a lease argument asks for: 0 asks for the bay's default (R128). -/
def leaseLength (r : Bay) (arg : Nat) : Nat := if arg = 0 then r.settings.defaultLease else arg

/-- The lease end of a lease of `n` minutes taken now, on the seconds timebase (R128). -/
def State.leaseEndAfter (s : State) (n : Nat) : Nat := s.seconds + 60 * n

/-- A claim added and its start reported: LC, DS, DCU, FCU in this order (R130, R131). FCU's waiting is the absent
fill-start level. -/
def State.beginClaim (s : State) (p : Port) (b : Nat) (minutes : Nat) : State :=
  let s := s.addClaim b { holder := p, leaseMinutes := minutes, leaseEnd := s.leaseEndAfter minutes, fillStart := none }
  let s := s.causeBegins b
  let s := if s.inDefrost b .granted then s.withdraw b else s
  s.doorClaimed b

/-- The end of a claim handed to the other blocks, after its record has left the table: DCU, LC, FCU for a FUEL claim,
DS (R137). -/
def State.handClaimEnd (s : State) (b : Nat) (c : Claim) (fill : Fill) (way : Nat) : State :=
  let s := (s.doorUnclaimed b).causeEnds b
  let s := if c.holder = .fuel then s.reportFill b fill way else s
  s.selectIfQueued b

/-- A claim released (R135). -/
def State.releaseClaim (s : State) (b : Nat) (c : Claim) : State :=
  (s.removeClaim b).handClaimEnd b c (s.fillOf b c) reasonRelease

/-- A lease expired (R136). -/
def State.expireClaim (s : State) (b : Nat) (c : Claim) : State :=
  let t := (s.removeClaim b).postAt c.holder .claimExpired b [.byte (claimKindCode c.holder), .byte c.leaseMinutes]
  t.handClaimEnd b c (s.fillOf b c) reasonExpiry

/-- The lease restarted from the present moment (R133). -/
def State.renewClaim (s : State) (b minutes : Nat) : State :=
  { s with
    claims := mapKey b (fun c => { c with leaseMinutes := minutes, leaseEnd := s.leaseEndAfter minutes }) s.claims }

/-- A claim on a dropped bay revoked, with the generation the commit advanced to (R138, R141). -/
def State.revokeClaim (s : State) (b : Nat) : State :=
  match s.claimOf b with
  | none => s
  | some c =>
    (s.removeClaim b).postAt c.holder .claimRevoked b [.byte (claimKindCode c.holder), .word s.generation]

/-- The claim on the bay that the port itself holds. -/
def State.ownClaim (s : State) (p : Port) (b : Nat) : Option Claim :=
  match s.claimOf b with
  | some c => if c.holder = p then some c else none
  | none => none

end Sys2Proof.Machine
end

