-- ==== Sys2Proof/Machine/Silence.lean ====
section
/-!
DEFINITION. The office silence timer and what an applied commit does to it (09 R176, R181).
-/
namespace Sys2Proof.Machine

/-- The silence limit in force. -/
def State.silenceLimit (s : State) : Nat := s.yard.only.silenceLimit

/-- The timer started with the limit in force. -/
def State.freshSilenceTimer (s : State) : Option SilenceTimer :=
  some { deadline := s.inSeconds s.silenceLimit, limit := s.silenceLimit }

/-- Whether the silence timer has run out. -/
def State.silenceDue (s : State) : Bool :=
  match s.silenceTimer with
  | none => false
  | some t => decide (t.deadline ≤ s.now)

/-- A valid Office frame restarts the timer with the limit in force, if that is not 0 (R176, R178). -/
def State.restartSilence (s : State) : State :=
  if s.silenceLimit = 0 then s else { s with silenceTimer := s.freshSilenceTimer }

/-- An applied commit's silence limit takes effect; `old` is the limit before it (R181). -/
def State.silenceCommitted (s : State) (old : Nat) : State :=
  if s.silenceLimit = 0 then
    match s.silence with
    | .off => s
    | .watching => { s with silence := .off, silenceTimer := none }
    | .silent => { s with silenceTimer := none }
  else if old = 0 then
    match s.silence with
    | .off => { s with silence := .watching, silenceTimer := s.freshSilenceTimer }
    | .watching => s
    | .silent => { s with silenceTimer := s.freshSilenceTimer }
  else s

/-- SILENT ends: WATCHING, or OFF where the limit in force is 0; the saved mode is discarded (R179, R180). -/
def State.endSilence (s : State) : State :=
  { s with savedMode := none, silence := if s.silenceLimit = 0 then .off else .watching }

end Sys2Proof.Machine
end

