-- ==== Sys2Proof/Machine/PlanStore.lean ====
section
/-!
DEFINITION. The Plan Store: staging edits, PLAN COMMIT's scan, the application of a commit (08).
-/
namespace Sys2Proof.Machine

/-! ## Staging (R148 to R153) -/

/-- One staging setting: the field its code names, and its value or absent (R206). -/
structure StageSetting where
  field : Option PlanField
  value : Option Nat
  deriving DecidableEq, Repr

/-- Whether a list of settings names one field twice. -/
def namesTwice : List StageSetting → Bool
  | [] => false
  | x :: rest => rest.any (fun y => x.field == y.field) || namesTwice rest

/-- The most settings of a staging request (R148). -/
def maxSettings : Nat := 16

/-- What every staging list must satisfy: 1 to 16 settings, each allowed at its level, none named twice (R149 to R151). -/
def settingsOk (allowed : StageSetting → Bool) (l : List StageSetting) : Bool :=
  decide (1 ≤ l.length) && decide (l.length ≤ maxSettings) && l.all allowed && !namesTwice l

/-- A setting STAGE YARD may carry: a field of yard level, with a value (R149). -/
def StageSetting.okYard (x : StageSetting) : Bool :=
  match x.field, x.value with
  | some (.setting _), some _ => true
  | some (.yardOnly _), some _ => true
  | _, _ => false

/-- A setting STAGE ROW may carry: an overridable field (R150). -/
def StageSetting.okRow (x : StageSetting) : Bool :=
  match x.field with
  | some (.setting _) => true
  | _ => false

/-- A setting STAGE BAY may carry: row and genset with a value, departure, an overridable field (R151). -/
def StageSetting.okBay (x : StageSetting) : Bool :=
  match x.field with
  | some (.setting _) => true
  | some .departure => true
  | some .row => x.value.isSome
  | some .genset => x.value.isSome
  | _ => false

/-- A setting applied to the yard profile. -/
def Yard.stage (y : Yard) (x : StageSetting) : Yard :=
  match x.field, x.value with
  | some (.setting f), some v => { y with settings := y.settings.set f v }
  | some (.yardOnly f), some v => { y with only := y.only.set f v }
  | _, _ => y

/-- A setting applied to a row profile. -/
def Profile.stage (p : Profile) (x : StageSetting) : Profile :=
  match x.field with
  | some (.setting f) => Settings.set p f x.value
  | _ => p

/-- A setting applied to a bay record. -/
def PlanBay.stage (e : PlanBay) (x : StageSetting) : PlanBay :=
  match x.field with
  | some (.setting f) => { e with overrides := Settings.set e.overrides f x.value }
  | some .departure => { e with departure := x.value }
  | some .row => { e with row := x.value.getD e.row }
  | some .genset => { e with genset := x.value.getD e.genset }
  | _ => e

/-- Whether a list names a field. -/
def namesField (f : PlanField) (l : List StageSetting) : Bool := l.any fun x => x.field == some f

/-- A new bay record before its settings: every optional field absent (R151). -/
def PlanBay.blank : PlanBay := { row := 0, genset := 0, departure := none, overrides := Profile.empty }

/-! ## PLAN COMMIT's scan (R154 to R156) -/

/-- A failure of the scan: the answer code, the record type and number, the field code or 0 (R154, R205). -/
structure CommitFailure where
  code : AnswerCode
  record : Nat
  number : Nat
  field : Nat
  deriving DecidableEq, Repr

/-- The first of D, U, F that is not above the one before it (R155, R156). -/
def notRising (e d u f : Nat) : Option Nat :=
  if d ≤ e then some 0 else if u ≤ d then some 1 else if f ≤ u then some 2 else none

/-- The thresholds' failure as a field code: D, U or F. -/
def Settings.risingFailure (p : Settings Nat) : Option Nat :=
  (notRising p.eligible p.due p.urgent p.forced).map fun i => SettingField.due.code + i

/-- The yard profile's checks, in turn (R155). -/
def State.yardFailure (s : State) : Option CommitFailure :=
  let y := s.staged.yard
  let fail := fun (code : AnswerCode) (field : Nat) => CommitFailure.mk code 0 0 field
  ((settingFields.find? fun f => !f.inRange (y.settings.get f)).map fun f => fail .invalid f.code).or <|
  ((yardFields.find? fun f => !f.inRange (y.only.get f)).map fun f => fail .invalid f.code).or <|
  (y.settings.risingFailure.map fun f => fail .invalid f).or <|
  (if y.settings.lowLimit ≤ y.settings.criticalLimit then some (fail .invalid SettingField.criticalLimit.code) else none).or <|
  (if y.only.slots < y.only.fbSlots then some (fail .invalid YardField.fbSlots.code) else none).or <|
  ((notRising y.only.fbEligible y.only.fbDue y.only.fbUrgent y.only.fbForced).map fun i =>
    fail .invalid (YardField.fbDue.code + i)).or <|
  if y.only.slots < s.slotHolders then some (fail .slotsInUse YardField.slots.code) else none

/-- The first field a profile gives out of its range. -/
def Profile.outOfRange (p : Profile) : Option SettingField :=
  settingFields.find? fun f =>
    match Settings.get p f with
    | some v => !f.inRange v
    | none => false

/-- A row profile's checks: the range of each field it gives (R156). -/
def State.rowFailure (s : State) (n : Nat) : Option CommitFailure :=
  ((s.staged.row n).outOfRange).map fun f => ⟨.invalid, 1, n, f.code⟩

/-- Whether a defrost state keeps a bay from being dropped (R156). -/
def DefrostState.holdsBay : DefrostState → Bool
  | .granted => true
  | .running => true
  | .stopping => true
  | .unknown => true
  | .clear => false
  | .queued => false
  | .drip => false

/-- The largest yard minute (R146). -/
def maxMinute : Nat := 4294967295

/-- A bay record's checks: ranges from row through default lease, then the resolved thresholds and limits (R156). -/
def Plan.bayFailure (p : Plan) (b : Nat) (e : PlanBay) : Option CommitFailure :=
  let fail := fun (field : Nat) => CommitFailure.mk .invalid 2 b field
  let r := p.resolve e
  (if 7 < e.row then some (fail 1) else none).or <|
  (if 1 < e.genset then some (fail 2) else none).or <|
  (if maxMinute < e.departure.getD 0 then some (fail 3) else none).or <|
  ((Profile.outOfRange e.overrides).map fun f => fail f.code).or <|
  (r.risingFailure.map fail).or <|
  if r.lowLimit ≤ r.criticalLimit then some (fail SettingField.criticalLimit.code) else none

/-- One bay address of the scan (R156). -/
def State.addressFailure (s : State) (b : Nat) : Option CommitFailure :=
  match findKey b s.staged.bays, s.bay? b with
  | some e, _ => s.staged.bayFailure b e
  | none, some r => if r.defrost.state.holdsBay then some ⟨.bayInDefrost, 2, b, 0⟩ else none
  | none, none => none

/-- The scan: the yard, the rows 0 to 7, the addresses 1 to 127; the first failure (R154). -/
def State.commitFailure (s : State) : Option CommitFailure :=
  s.yardFailure.or <|
  ((List.range 8).findSome? s.rowFailure).or <|
  (List.range 127).findSome? fun i => s.addressFailure (i + 1)

/-! ## Application (R159 to R161) -/

/-- The next plan generation (R161). -/
def nextGeneration (g : Nat) : Nat := if 65535 ≤ g then 1 else g + 1

/-- The source in use: NONE for a reported ENGINE on a bay planned without a genset (02 R39). -/
def deriveSource (genset : Nat) (reported : PowerSource) : PowerSource :=
  if reported = .engine ∧ genset ≠ 1 then .none else reported

/-- The record of a bay that a commit adds (01 R25, 02 R42, 03 R60, 04 R89, 05 R109, 06 R125). -/
def Bay.added (e : PlanBay) (st : Settings Nat) (accrualEnd : Nat) : Bay where
  entry := e
  settings := st
  loop := { presence := .pending, missCount := 0, lostReported := false, baseline := none, flight := none }
  readings :=
    { unitClass := none, unitMode := none, door := .unknown, doorUnknownRun := 0, reportedSource := .none,
      sourceInUse := .none, coil := none, returnAir := none, fuelLevel := none, invalidFuelRun := 0, burnRate := 0,
      faultCode := none, lastReply := .absent, stale := true, alarmReported := false, mismatchGen := 0 }
  frost :=
    { debt := 0, urgency := .none, accrualEnd := accrualEnd, doorSeconds := 0, secondCounted := false,
      intervalCount := 0, overdue := false }
  defrost :=
    { state := .clear, kind := none, slot := false, want := none, timer := .absent, dripEnd := none, kept := none,
      confirmed := false, checkCount := 0, startFailures := 0, refusal := false, fuelBlock := false,
      waitingReported := false }
  fuel := { endurance := none, state := .unknown, estimated := false, saturated := false, short := false }
  door :=
    { state := .shut, graceEnd := none, openRun := 0, listEntry := none, beaconWanted := false,
      beaconConfirmed := none, autoRaised := false }

/-- The record of a bay that a commit keeps: the new entry and settings, the source in use derived again (02 R42, 08
R160). -/
def Bay.keptBy (r : Bay) (e : PlanBay) (st : Settings Nat) : Bay :=
  { r with
    entry := e
    settings := st
    readings := { r.readings with sourceInUse := deriveSource e.genset r.readings.reportedSource } }

/-- The Bay Table over the pending plan (R159, R160). -/
def State.newBays (s : State) : List (Nat × Bay) :=
  s.staged.bays.map fun p =>
    let st := s.staged.resolve p.2
    match s.bay? p.1 with
    | some r => (p.1, r.keptBy p.2 st)
    | none => (p.1, Bay.added p.2 st (s.inMinutes st.ai))

/-- The bays that the application drops, with their records. -/
def State.droppedBays (s : State) : List (Nat × Bay) := s.bays.filter fun p => (findKey p.1 s.staged.bays).isNone

/-- The addresses that the application keeps. -/
def State.keptBays (s : State) : List Nat := (s.addresses).filter fun b => (findKey b s.staged.bays).isSome

/-- The addresses that the application adds. -/
def State.addedBays (s : State) : List Nat := (keysOf s.staged.bays).filter fun b => !s.planned b

/-- PS's own part of the application: steps 1 to 7 of R159. The staged plan is the pending plan, so it stands. -/
def State.replacePlan (s : State) : State :=
  let y := s.staged.yard
  { s with
    generation := nextGeneration s.generation
    yard := y
    rows := s.staged.rows
    bays := s.newBays
    commitPending := false
    marked := []
    fallback := { slots := y.only.fbSlots, eligible := y.only.fbEligible, due := y.only.fbDue,
                  urgent := y.only.fbUrgent, forced := y.only.fbForced, raisePeriod := y.only.fbRaise } }

/-- DS on a dropped bay: its queue entry goes, a record in RUNNING, STOPPING or UNKNOWN posts DEFROST_ABANDONED (04 R89).
A slot it holds, as no run's dropped bay does, is freed and reported to the shed logic (04 R75). -/
def State.dropDefrost (s : State) (p : Nat × Bay) : State :=
  let d := p.2.defrost
  let s := { s with queue := s.queue.filter fun q => q.bay ≠ p.1 }
  let s := if d.slot then { s with slotHolders := s.slotHolders - 1 }.shedCheck else s
  if d.state = .running ∨ d.state = .stopping ∨ d.state = .unknown then
    s.post .defrostAbandoned p.1 (defrostDetail p.2 (some reasonDroppedFromPlan))
  else s

/-- The application of the pending commit: PS, then the blocks (LC, FAU, DS, FCU, CT; BT and DCU act through the new
records), then PLAN_APPLIED, then a selection run (R159, R160; log 27). -/
def State.applyCommit (s : State) : State :=
  let dropped := s.droppedBays
  let kept := s.keptBays
  let added := s.addedBays
  let revoked := dropped.filter fun p => s.claimed p.1
  let t := s.replacePlan.silenceCommitted s.silenceLimit
  let t := dropped.foldl (fun t p => t.removeWatch p.1) t
  let t := t.recomputeAll
  let t := dropped.foldl State.dropDefrost t
  let t := kept.foldl State.recomputeFuel t
  let t := dropped.foldl (fun t p => t.revokeClaim p.1) t
  let t := t.post .planApplied 0
    [.word t.generation, .byte added.length, .byte kept.length, .byte dropped.length, .byte revoked.length]
  t.select

/-- The pending commit applied, where one is pending (R157, R164). -/
def State.applyPending (s : State) : State := if s.commitPending then s.applyCommit else s

/-- An accepted commit becomes the pending commit (R157). -/
def State.acceptCommit (s : State) : State :=
  { s with commitPending := true, marked := s.addresses.filter fun b => (findKey b s.staged.bays).isNone }

end Sys2Proof.Machine
end

