-- ==== Sys2Proof/Machine/Rounds.lean ====
section
/-!
DEFINITION. Rounds and slots, and changes of the loop mode (01 R1 to R6, R18).
-/
namespace Sys2Proof.Machine

/-- A slot begins: its poll is composed and sent; a watch slot sets the cursor (R5, R16 to R18). -/
def State.beginSlot (s : State) (b : Nat) (watch : Bool) : State :=
  s.onBay b fun r =>
    let c := s.compose b r
    let s := s.modLoop b fun _ => c.1
    { s with
      slot := some { bay := b, watch := watch, carried := c.2.carried, num := c.2.num, judged := false }
      cursor := if watch then some b else s.cursor }

/-- The next higher planned address (R4). -/
def State.nextAddress (s : State) (b : Nat) : Option Nat := s.addresses.find? fun a => b < a

/-- A round begins, where the conditions of R4 hold and none runs: its first main slot goes to the lowest address (R6). -/
def State.beginRound (s : State) : State :=
  match s.mode, s.slot, s.addresses.head? with
  | .halt, _, _ => s
  | _, some _, _ => s
  | _, none, none => s
  | _, none, some b => { s with nextMain := some b }.beginSlot b false

/-- The round ends: the Plan Store is signalled, then the next round begins (R6). -/
def State.endRound (s : State) : State :=
  { s with nextMain := none, slot := none, roundEnding := false }.applyPending.beginRound

/-- The next main slot begins, or the round ends where there is none (R4, R6). -/
def State.nextMainSlot (s : State) : State :=
  match s.nextMain with
  | some b => s.beginSlot b false
  | none => s.endRound

/-- What follows a slot that has ended: after a main slot the round position moves on and a watch slot follows where the
watch list holds a bay; entry to HALT ends the round here (R3 to R6). -/
def State.afterSlot (s : State) (sl : Slot) : State :=
  let s := { s with slot := none }
  if s.roundEnding then s.endRound
  else if sl.watch then s.nextMainSlot
  else
    let s := { s with nextMain := s.nextAddress sl.bay }
    match s.nextWatch with
    | some b => s.beginSlot b true
    | none => s.nextMainSlot

/-- Entry to HALT on the loop: the round position is cleared, and the round ends at the end of the slot in progress, or
at once where there is none (R3). -/
def State.haltLoop (s : State) : State :=
  let s := { s with nextMain := none }
  if s.slot.isSome then { s with roundEnding := true } else s.endRound

/-- A change of the loop mode: DS acts on it, then the loop (R2, R3; log 13). The mode already in force changes nothing
(log 9). -/
def State.changeMode (s : State) (m : LoopMode) : State :=
  if s.mode = m then s
  else
    let t := { s with mode := m }.schedulerMode s.mode
    if m = .halt then t.haltLoop else if s.mode = .halt then t.beginRound else t

end Sys2Proof.Machine
end

