-- ==== Sys2Proof/Machine/Readings.lean ====
section
/-!
DEFINITION. Replies: judging one, decoding its fields by class, storing them and handing them to their owners (01 R10 to
R14, 02 R28 to R41, 11 R204); and misses (01 R11, R12, R21).
-/
namespace Sys2Proof.Machine

/-! ## Fields of a reply frame (11 R204) -/

/-- The bytes of a reply frame. -/
def replyLength : Nat := 15

/-- One byte of a frame. -/
def byteAt (f : List Byte) (i : Nat) : Byte := f.getD i 0

/-- The sequence echo, in the two lowest bits of its byte. -/
def replyEcho (f : List Byte) : BitVec 2 := (byteAt f 5).setWidth 2

/-- A temperature in tenths from the two bytes of its field, by class (R30). -/
def temperature (c : UnitClass) (hi lo : Byte) : Option Int :=
  let v := match c with
    | .a => signedOf1 hi * 10
    | .b => signedOf2 hi lo
  if -500 ≤ v ∧ v ≤ 500 then some v else none

/-- What a fuel field says (02, before R31). -/
inductive FuelField where
  | valid (level : Nat) | invalid | noSender
  deriving DecidableEq, Repr

/-- The fuel field of a class A unit: two decimal digits and a full flag (R31). -/
def fuelFieldA (digits flags : Byte) : FuelField :=
  let hi := digits.toNat / 16
  let lo := digits.toNat % 16
  if flags.getLsbD 0 then .valid 100
  else if hi ≤ 9 ∧ lo ≤ 9 then .valid (10 * hi + lo)
  else .invalid

/-- The fuel field of a class B unit (R32). -/
def fuelFieldB (v : Byte) : FuelField := if v.toNat = 255 then .noSender else .valid (min v.toNat 100)

/-- The fuel field by class; an undefined class code makes it invalid (R29). -/
def fuelField (c : Option UnitClass) (f : List Byte) : FuelField :=
  match c with
  | some .a => fuelFieldA (byteAt f 6) (byteAt f 7)
  | some .b => fuelFieldB (byteAt f 6)
  | none => .invalid

/-- The run of invalid fields at which the level becomes UNKNOWN (R33), and the run of UNKNOWN door readings that makes
a switch-fault report (R35). -/
def invalidRunLimit : Nat := 3
def doorUnknownLimit : Nat := 3

/-- Fuel level and invalid-fuel run after a fuel field (R33). -/
def Readings.takeFuel (r : Readings) (x : FuelField) : Readings :=
  match x with
  | .valid l => { r with fuelLevel := some l, invalidFuelRun := 0 }
  | .noSender => { r with fuelLevel := none }
  | .invalid =>
    { r with
      fuelLevel := if invalidRunLimit ≤ r.invalidFuelRun + 1 then none else r.fuelLevel
      invalidFuelRun := min (r.invalidFuelRun + 1) 255 }

/-- The fresh mark handed on with the level (R33). -/
def FuelField.fresh : FuelField → Bool
  | .valid _ => true
  | .invalid => false
  | .noSender => false

/-- Class, temperatures and burn rate: those of the class, or held where the class code is undefined (R29, R30, R34). -/
def Readings.takeClass (r : Readings) (f : List Byte) : Readings :=
  match UnitClass.ofCode (byteAt f 1).toNat with
  | none => r
  | some c =>
    { r with
      unitClass := some c
      coil := temperature c (byteAt f 8) (byteAt f 9)
      returnAir := temperature c (byteAt f 10) (byteAt f 11)
      burnRate := match c with
        | .a => 0
        | .b => (byteAt f 12).toNat }

/-- The door-unknown run after a reading (R35). -/
def doorRun (run : Nat) : DoorReading → Nat
  | .unknown => min (run + 1) 255
  | .closed => 0
  | .opened => 0

/-- The door reading of a reply. -/
def replyDoor (f : List Byte) : DoorReading := DoorReading.ofCode (byteAt f 3).toNat

/-- The unit mode a reply shows, if it shows one (R36). -/
def replyMode (f : List Byte) : Option UnitMode := UnitMode.ofCode (byteAt f 2).toNat

/-- The power source a reply reports (R39). -/
def replySource (f : List Byte) : PowerSource := PowerSource.ofCode (byteAt f 4).toNat

/-- All decoded values stored together (R28 to R39, R41): the marks of R37 and R40 are set by the rules that post. -/
def Readings.take (r : Readings) (f : List Byte) (genset : Nat) (clock : Option Nat) : Readings :=
  let r := (r.takeClass f).takeFuel (fuelField (UnitClass.ofCode (byteAt f 1).toNat) f)
  { r with
    unitMode := (replyMode f).or r.unitMode
    door := replyDoor f
    doorUnknownRun := doorRun r.doorUnknownRun (replyDoor f)
    reportedSource := replySource f
    sourceInUse := deriveSource genset (replySource f)
    faultCode := some (byteAt f 13).toNat
    lastReply := match clock with
      | some m => .minute m
      | none => .clockUnset
    stale := false }

/-- Whether BT makes a switch-fault report with the reading: an UNKNOWN that brings the run to 3 (R35). -/
def reportsSwitchFault (before : Readings) (f : List Byte) : Bool :=
  (replyDoor f == .unknown) && decide (before.doorUnknownRun + 1 = doorUnknownLimit)

/-! ## Unit alarms (R37, R40) -/

/-- UNIT_ALARM for unit mode ALARM, once per episode (R37). -/
def State.modeAlarm (s : State) (b : Nat) (mode : Option UnitMode) : State :=
  s.onBay b fun r =>
    match mode with
    | none => s
    | some .alarm =>
      if r.readings.alarmReported then s
      else (s.post .unitAlarm b [.byte reasonModeAlarm, .byte (r.readings.faultCode.getD 0)]).modReadings b
        fun x => { x with alarmReported := true }
    | some _ => s.modReadings b fun x => { x with alarmReported := false }

/-- UNIT_ALARM for a genset mismatch, once per generation (R40). -/
def State.mismatchAlarm (s : State) (b : Nat) : State :=
  s.onBay b fun r =>
    if r.readings.reportedSource = .engine ∧ r.entry.genset ≠ 1 ∧ r.readings.mismatchGen ≠ s.generation then
      (s.post .unitAlarm b [.byte reasonMismatch, .byte (r.readings.faultCode.getD 0)]).modReadings b
        fun x => { x with mismatchGen := s.generation }
    else s

/-! ## A valid reply -/

/-- LC's part of a valid reply: miss count 0, PRESENT, BAY_FOUND where the return is announced, the echo (R11 to R13, R19
to R24). -/
def State.loopReply (s : State) (b : Nat) (r : Bay) (l : LoopRec) : State :=
  let announced := r.loop.lostReported && !(r.loop.presence == .present)
  let s := s.modLoop b fun _ =>
    { l with presence := .present, missCount := 0, lostReported := l.lostReported && !announced }
  if announced then s.post .bayFound b [] else s

/-- A beacon command that the reply confirmed goes to DCU (R14, R20). -/
def State.outcomeToDoor (s : State) (b : Nat) (o : HolderOutcome) : State :=
  match o with
  | .confirmed c => s.beaconConfirmed b c
  | .noChange | .startNotTaken | .adopted => s

/-- A valid reply of the slot's bay: LC, then BT stores every field, then DCU, FCU and DS act on theirs (R14, R28).
DESIGN CHOICE: BAY_FOUND is posted before the fields are stored, UNIT_ALARM after it and before any event of DCU, FCU or
DS (log 37). -/
def State.validReply (s : State) (sl : Slot) (f : List Byte) : State :=
  let b := sl.bay
  s.onBay b fun r =>
    let h := r.loop.echoed (replyEcho f) sl.carried
    let fresh := (fuelField (UnitClass.ofCode (byteAt f 1).toNat) f).fresh
    let s := s.loopReply b r h.1
    let s := s.modReadings b fun x => x.take f r.entry.genset s.clock
    let s := (s.modeAlarm b (replyMode f)).mismatchAlarm b
    let s := (s.outcomeToDoor b h.2).doorReading b (reportsSwitchFault r.readings f)
    let s := (s.captureFill b fresh).recomputeFuel b
    s.schedulerReply b (replyMode f) h.2

/-! ## A miss -/

/-- The misses in a row that make a bay LOST (R12). -/
def lostMisses : Nat := 3

/-- LC's record after a miss; the third makes the bay LOST (R11, R12). -/
def LoopRec.miss (l : LoopRec) : LoopRec :=
  let count := min (l.missCount + 1) 255
  if count = lostMisses ∧ l.presence ≠ .lost then { l with missCount := count, presence := .lost, lostReported := true }
  else { l with missCount := count }

/-- A miss in the slot: the count and the presence, BAY_LOST and staleness on entry into LOST, and a start not taken on
its third send (R11 to R13, R21, R41, R76). DESIGN CHOICE: BAY_LOST is posted and DS told of LOST before the start
failure (log 37). -/
def State.missedSlot (s : State) (sl : Slot) : State :=
  let b := sl.bay
  s.onBay b fun r =>
    let h := r.loop.missed sl.carried
    let s := s.modLoop b fun _ => h.1.miss
    let s :=
      if h.1.miss.presence ≠ r.loop.presence then
        (((s.post .bayLost b []).modReadings b fun x => { x with stale := true }).schedulerLost b)
      else s
    if r.defrost.state = .granted then s.holderOutcome b h.2 else s

/-! ## The slot's reply and its end -/

/-- Whether a reply frame is valid: its check and its address echo (R10, 11 R203). -/
def replyValid (sl : Slot) (f : List Byte) : Bool := checkOk f && decide ((byteAt f 0).toNat = sl.bay)

/-- A reply completes in the slot in progress and is judged; in no slot, after a judged reply, or with fewer than fifteen
bytes, nothing completes (R10, 11 R204). DESIGN CHOICE: every REPLY_RECEIVED answers the poll of the slot in progress; the late
reply to a slot ended or abandoned, which R10 and R26 discard, is no such command (log 25). -/
def State.takeReply (s : State) (bytes : List Byte) : State :=
  match s.slot with
  | none => s
  | some sl =>
    if sl.judged ∨ bytes.length < replyLength then s
    else
      let f := bytes.take replyLength
      let s := { s with slot := some { sl with judged := true } }
      if replyValid sl f then s.validReply sl f else s.missedSlot sl

/-- The slot in progress ends: a slot without a judged reply is a miss, and the next slot begins or the round ends (R4 to
R6, R10). -/
def State.endSlot (s : State) : State :=
  match s.slot with
  | none => s
  | some sl => (if sl.judged then s else s.missedSlot sl).afterSlot sl

end Sys2Proof.Machine
end

