-- ==== Sys2Proof/Machine/Resets.lean ====
section
/-!
DEFINITION. The loop reset and the full reset (01 R26, R27, 02 R43, 03 R64, 04 R90, R91, 05 R111, 06 R126, 07 R143, R144,
08 R164, R165, 09 R167, R175, R180, R182, 10 R200, R201), and what ends and begins office silence (09 R177, R179).
-/
namespace Sys2Proof.Machine

/-- LC's record of a bay after a loop reset: the lost-reported mark alone is kept (R26). -/
def LoopRec.loopReset (l : LoopRec) : LoopRec :=
  { l with presence := .pending, missCount := 0, baseline := none, flight := none }

/-- A bay's record after the parts of a loop reset that concern it alone: LC's record, the stale mark, the beacon
confirmed state (01 R26, 02 R43, 06 R126). -/
def Bay.loopReset (r : Bay) : Bay :=
  { r with
    loop := r.loop.loopReset
    readings := { r.readings with stale := true }
    door := { r.door with beaconConfirmed := none } }

/-- LC's part-wide state cleared and the mode set to LISTEN, each bay's record reset (01 R26 steps 1 to 7). -/
def State.clearLoop (s : State) : State :=
  { s with
    mode := .listen
    nextMain := none
    slot := none
    roundEnding := false
    watch := []
    cursor := none
    bays := s.bays.map fun p => (p.1, p.2.loopReset) }

/-- The loop reset: LC clears, DS takes the mode change, UNKNOWN and the refusal marks, PS applies a pending commit,
silence ends, LC rebuilds the watch list and a round begins. DESIGN CHOICE: the commit is applied after all of DS's steps in R90, at
their end and not between two of them (log 44). -/
def State.loopReset (s : State) : State :=
  let t := (s.clearLoop.schedulerMode s.mode).allToUnknown
  let t := t.overBays fun b t => t.clearRefusal b
  let t := t.applyPending
  let t := if t.silence = .silent then t.endSilence else t
  t.rebuildWatch.beginRound

/-- A port after a full reset taken while it stands so: emptied and idle, and a transaction in progress abandoned (R201). -/
def PortState.fullReset (ps : PortState) : PortState :=
  { PortState.reset with abandoned := ps.inTransaction || ps.abandoned }

/-- The full reset: every block empty, the timebase running on, the SHED line sampled at once (R167; logs 5, 32). -/
def State.fullReset (s : State) : State :=
  let t := { State.reset with
    now := s.now
    pending := s.pending
    freeCount := s.freeCount
    shedLine := s.shedLine
    filtered := s.shedLine
    ports := s.ports.map PortState.fullReset }
  if s.shedLine then t.shedAssert else t

/-- The mode that the silence action sets: HALT stays HALT (R177). -/
def State.silenceMode (s : State) : LoopMode :=
  if s.mode = .halt then .halt else if s.yard.only.silenceAction = 0 then .fallback else .halt

/-- OFFICE_SILENT posted to all three queues, each a home posting (R177, R185). DESIGN CHOICE: to Office, with its mirror
copies, then so to Fuel, then to Patrol (log 40). -/
def State.postSilent (s : State) (detail : List Item) : State :=
  ((s.postAt .office .officeSilent 0 detail).postAt .fuel .officeSilent 0 detail).postAt .patrol .officeSilent 0 detail

/-- The silence timer expires: SILENT from WATCHING; while SILENT nothing but the timer changes (R177, R178). -/
def State.silenceExpires (s : State) (t : SilenceTimer) : State :=
  match s.silence with
  | .watching =>
    let u := { s with savedMode := some s.mode }.changeMode s.silenceMode
    { u with silence := .silent, silenceTimer := none }.postSilent
      [.byte s.mode.code, .byte s.silenceMode.code, .word t.limit]
  | .silent => { s with silenceTimer := none }
  | .off => s

/-- Recovery under ACK: the saved mode restored, SILENT ended (R179). -/
def State.recover (s : State) (m : LoopMode) : State := (s.changeMode m).endSilence

end Sys2Proof.Machine
end

