-- ==== Sys2Proof/Machine/Operands.lean ====
section
/-!
DEFINITION. Taking a request: the port it may be sent on, the form of its argument bytes, its answer (10 R183, R184, 11
R205, R206).
-/
namespace Sys2Proof.Machine

/-! ## Argument forms (R184 check 4, R205) -/

/-- No argument bytes. -/
def noArgs : List Byte → Option Unit
  | [] => some ()
  | _ => none

/-- One byte. -/
def oneByte : List Byte → Option Nat
  | [a] => some a.toNat
  | _ => none

/-- Two bytes. -/
def twoBytes : List Byte → Option (Nat × Nat)
  | [a, b] => some (a.toNat, b.toNat)
  | _ => none

/-- A yard minute in four bytes. -/
def minuteArg : List Byte → Option Nat
  | [a, b, c, d] => some (beNat [a, b, c, d])
  | _ => none

/-- A presence or operation byte: 0 or 1, anything else a form fault. -/
def zeroOne (b : Byte) : Option Bool :=
  match b.toNat with
  | 0 => some false
  | 1 => some true
  | _ => none

/-- Bay, presence byte, minute: the minute is `none` where the departure is to be absent. -/
def departureArgs : List Byte → Option (Nat × Option Nat)
  | [b, p, m3, m2, m1, m0] => (zeroOne p).map fun given => (b.toNat, if given then some (beNat [m3, m2, m1, m0]) else none)
  | _ => none

/-- A list of settings, six bytes each (R206). -/
def settingList : List Byte → Option (List StageSetting)
  | [] => some []
  | code :: presence :: v3 :: v2 :: v1 :: v0 :: rest =>
    match zeroOne presence, settingList rest with
    | some given, some more =>
      some ({ field := PlanField.ofCode code.toNat, value := if given then some (beNat [v3, v2, v1, v0]) else none } :: more)
    | _, _ => none
  | _ => none

/-- A setting count and as many settings; a count that does not match the length is a form fault. -/
def countedSettings : List Byte → Option (List StageSetting)
  | [] => none
  | n :: body =>
    match settingList body with
    | some l => if l.length = n.toNat then some l else none
    | none => none

/-- A row or bay, then counted settings. -/
def namedSettings : List Byte → Option (Nat × List StageSetting)
  | [] => none
  | a :: rest => (countedSettings rest).map fun l => (a.toNat, l)

/-- The arguments of MIRROR SET. -/
structure MirrorArgs where
  rule : Nat
  set : Bool
  source : Nat
  first : Nat
  last : Nat
  classes : Nat
  dest : Nat
  deriving DecidableEq, Repr

/-- The seven bytes of MIRROR SET. -/
def mirrorArgs : List Byte → Option MirrorArgs
  | [rule, op, source, first, last, classes, dest] =>
    (zeroOne op).map fun set =>
      { rule := rule.toNat, set := set, source := source.toNat, first := first.toNat, last := last.toNat,
        classes := classes.toNat, dest := dest.toNat }
  | _ => none

/-! ## Ports (00 Requests at a Glance) -/

/-- Whether a request may be sent on a port. -/
def requestPermitted : Request → Port → Bool
  | .attnSet, _ | .bayRead, _ | .claim, _ | .claimRelease, _ | .claimRenew, _ | .eventFetch, _ | .status, _ => true
  | .beaconSet, p | .doorList, p => p == .office || p == .patrol
  | .fuelList, p => p == .office || p == .fuel
  | .clockSet, p | .defrostCancel, p | .defrostRequest, p | .departureSet, p | .loopReset, p | .mirrorSet, p
  | .modeSet, p | .planCommit, p | .queueRead, p | .resume, p | .stageBay, p | .stageClear, p | .stageDrop, p
  | .stageRow, p | .stageYard, p => p == .office

/-! ## Answers (R183) -/

/-- An answer's code and result bytes. -/
structure Reply where
  code : AnswerCode
  results : List Byte
  deriving DecidableEq, Repr

/-- An answer without results. -/
def Reply.bare (code : AnswerCode) : Reply := ⟨code, []⟩

/-- DONE with results. -/
def Reply.done (results : List Byte) : Reply := ⟨.done, results⟩

/-- The end of a transaction of which no request is taken: the port idle, all else as it stands (R183, R201). -/
def PortState.endTransaction (ps : PortState) : PortState :=
  { ps with inTransaction := false, abandoned := false, shiftOut := [] }

/-- The byte that goes out as the `k`th of the transaction in progress: the answer frame's, then filler of 0 for as long
as the transaction lasts (R183, R205); none on an idle port. -/
def PortState.byteOut (ps : PortState) (k : Nat) : Option Byte :=
  if ps.inTransaction then some (ps.shiftOut.getD k 0) else none

/-- The transaction ends with a frame taken: the number rises and the answer replaces the holder's content (R183). -/
def PortState.answer (ps : PortState) (request : Option Byte) (r : Reply) : PortState :=
  { ps with
    inTransaction := false
    shiftOut := []
    number := ps.number + 1
    holder := some { request := request, code := r.code, number := ps.number + 1, results := r.results } }

/-- The answer of a port. -/
def State.answer (s : State) (p : Port) (request : Option Byte) (r : Reply) : State :=
  s.modPort p fun ps => ps.answer request r

/-- A transaction ends with a frame shifted in: `act` takes it, but the frame of a transaction that a full reset has
abandoned is not taken (R183, R201; log 36). -/
def State.takeFrame (s : State) (p : Port) (act : State → State) : State :=
  if (s.port p).abandoned then s.modPort p PortState.endTransaction else act s

/-- A frame that passes check 1 restarts the silence timer on the Office port (R176, R184). -/
def State.frameTaken (s : State) (p : Port) : State := if p = .office then s.restartSilence else s

/-- What a request whose arguments have their form does; INVALID where they do not (R184 check 4). -/
def withForm {α : Type} (form : Option α) (act : α → State → State × Reply) (s : State) : State × Reply :=
  match form with
  | some a => act a s
  | none => (s, Reply.bare .invalid)

/-- A request judged: the silence timer, check 3, check 4 and the owner's rule, the answer (R183, R184). DESIGN CHOICE: the frame's
restart of the silence timer comes first, with the limit in force before a commit that the request applies (log 45). -/
def State.judge {α : Type} (s : State) (p : Port) (r : Request) (form : Option α)
    (act : α → State → State × Reply) : State :=
  let s := s.frameTaken p
  if requestPermitted r p then
    let out := withForm form act s
    out.1.answer p (some r.code) out.2
  else s.answer p (some r.code) (Reply.bare .notPermitted)

/-- A request at its transaction's end, judged unless the transaction was abandoned (R183, R184, R201). -/
def State.request {α : Type} (s : State) (p : Port) (r : Request) (form : Option α)
    (act : α → State → State × Reply) : State := s.takeFrame p fun s => s.judge p r form act

end Sys2Proof.Machine
end

