-- ==== Sys2Proof/Machine/Summaries.lean ====
section
/-!
DEFINITION. The result bytes of the requests that read: bay summary, STATUS, list entries (11, section 11.5; 10 R191,
R194, R198, R199; 05 R108; 06 R124; 07 R142). Where a field is absent and no rule gives its bytes they are free (log 8).
-/
namespace Sys2Proof.Machine

/-- Free bytes at places of the answer. -/
def State.freeBytes (s : State) (places : List Nat) : List Byte := places.map s.free

/-- The whole seconds left on a timer, rounded down (log 21). -/
def State.secondsLeft (s : State) (deadline : Nat) : Nat := (deadline - s.now) / stepsPerSecond

/-! ## Bay summary (11.5) -/

/-- The time of the last reply in four bytes; `place` is where its bytes are free. -/
def State.replyTimeBytes (s : State) (place : Nat) : ReplyTime → List Byte
  | .minute m => be4 m
  | .absent => s.freeBytes [place, place + 1, place + 2, place + 3]
  | .clockUnset => s.freeBytes [place, place + 1, place + 2, place + 3]

/-- The two flags of the last-reply time: present, clock unset. -/
def replyTimeFlags (present unset : Nat) : ReplyTime → Nat
  | .absent => 0
  | .minute _ => 2 ^ present
  | .clockUnset => 2 ^ present + 2 ^ unset

/-- Bytes 0 to 13: the plan's and LC's fields. -/
def State.summaryLoop (s : State) (b : Nat) (r : Bay) : List Byte :=
  [byteOf b, byteOf r.entry.row,
   byteOf (flagBit 0 r.hasGenset + flagBit 1 r.entry.departure.isSome + flagBit 2 (s.isMarked b))]
  ++ (match r.entry.departure with
      | some d => be4 d
      | none => s.freeBytes [3, 4, 5, 6])
  ++ [byteOf r.loop.presence.code, byteOf r.loop.missCount,
      byteOf (flagBit 0 (s.watch.contains b) + flagBit 1 r.loop.baseline.isSome + flagBit 2 r.loop.flight.isSome
        + flagBit 3 r.loop.lostReported)]
  ++ (match r.loop.baseline with
      | some n => [byteOf n.toNat]
      | none => s.freeBytes [10])
  ++ (match r.loop.flight with
      | some f => [byteOf (loopCmdCode (some f.cmd)), byteOf f.num.toNat, byteOf f.sends]
      | none => [0, 0, 0])

/-- A temperature in two bytes: UNKNOWN is −32,768 (R202). -/
def temperatureBytes (t : Option Int) : List Byte := signed2 (t.getD (-32768))

/-- Bytes 14 to 34: the reading fields. -/
def State.summaryReadings (s : State) (r : Readings) : List Byte :=
  [byteOf (unitClassCode r.unitClass), byteOf (unitModeCode r.unitMode), byteOf r.door.code, byteOf r.doorUnknownRun,
   byteOf r.reportedSource.code, byteOf r.sourceInUse.code]
  ++ temperatureBytes r.coil ++ temperatureBytes r.returnAir
  ++ [levelByte r.fuelLevel, byteOf r.invalidFuelRun, byteOf r.burnRate, byteOf (r.faultCode.getD 0),
      byteOf (flagBit 0 r.faultCode.isSome + flagBit 1 r.stale + flagBit 2 r.alarmReported
        + replyTimeFlags 3 4 r.lastReply)]
  ++ s.replyTimeBytes 29 r.lastReply ++ be2 r.mismatchGen

/-- Bytes 35 to 43: FAU's and DS's fields. -/
def summaryFrost (r : Bay) : List Byte :=
  [byteOf r.frost.debt, byteOf r.frost.urgency.code, byteOf r.frost.intervalCount, byteOf (flagBit 0 r.frost.overdue),
   byteOf r.defrost.state.code, byteOf (kindCode r.defrost.kind), byteOf (wantCode r.defrost.want),
   byteOf r.defrost.startFailures,
   byteOf (flagBit 0 r.defrost.slot + flagBit 1 r.defrost.refusal + flagBit 2 r.defrost.fuelBlock)]

/-- An endurance in two bytes; `place` is where its bytes are free while it is UNKNOWN. -/
def State.enduranceBytes (s : State) (place : Nat) : Option Nat → List Byte
  | some e => be2 e
  | none => s.freeBytes [place, place + 1]

/-- The flags of a fuel record: known, ESTIMATED, SATURATED, SHORT. -/
def FuelRec.listFlags (f : FuelRec) : Nat :=
  flagBit 0 f.endurance.isSome + flagBit 1 f.estimated + flagBit 2 f.saturated + flagBit 3 f.short

/-- Bytes 44 to 55: FCU's and DCU's fields. -/
def State.summaryFuelDoor (s : State) (r : Bay) : List Byte :=
  s.enduranceBytes 44 r.fuel.endurance ++ [byteOf r.fuel.state.code, byteOf r.fuel.listFlags, byteOf r.door.state.code]
  ++ (match r.door.graceEnd with
      | some t => be2 (s.secondsLeft t)
      | none => s.freeBytes [49, 50])
  ++ be2 r.door.openRun
  ++ [byteOf (beaconCode r.door.beaconWanted), byteOf (beaconConfirmedCode r.door.beaconConfirmed),
      byteOf (flagBit 0 r.door.graceEnd.isSome + flagBit 1 r.door.autoRaised)]

/-- Bytes 56 to 60: the claim (R142). DESIGN CHOICE: 0 seconds left in a BAY READ taken before the LEASE_EXPIRY of the same
moment, with the lease end reached (log 42). -/
def State.summaryClaim (s : State) : Option Claim → List Byte
  | none => [255, 0, 0, 0, 255]
  | some c =>
    [byteOf (portCode c.holder), byteOf (claimKindCode c.holder)] ++ be2 (c.leaseEnd - s.seconds) ++ [levelByte c.fillStart]

/-- The bay summary of 61 bytes (R191). -/
def State.baySummary (s : State) (b : Nat) (r : Bay) : List Byte :=
  s.summaryLoop b r ++ s.summaryReadings r.readings ++ summaryFrost r ++ s.summaryFuelDoor r
    ++ s.summaryClaim (s.claimOf b)

/-! ## STATUS (R199) -/

/-- The 17 bytes of STATUS on a port. -/
def State.statusBytes (s : State) (p : Port) : List Byte :=
  let ps := s.port p
  [byteOf s.mode.code, byteOf s.shed.code, byteOf s.silence.code] ++ be2 s.generation
  ++ [byteOf (flagBit 0 s.commitPending), byteOf s.slotHolders, byteOf s.queue.length, byteOf s.claims.length,
      byteOf (flagBit 0 s.clock.isSome)]
  ++ be4 (s.clock.getD 0)
  ++ [byteOf ps.queue.length, byteOf (flagBit 0 ps.overflow), byteOf (flagBit 0 ps.attn)]

/-! ## Lists (R108, R124, R198) -/

/-- The most entries in one answer. -/
def listPage : Nat := 16

/-- A page of a list from a start index: total length, entry count, entries. The entries carry their place in the page. -/
def pageOf {α : Type} (entry : Nat → α → List Byte) (l : List α) (start : Nat) : List Byte :=
  let page := (l.drop start).take listPage
  [byteOf l.length, byteOf page.length] ++ (page.zipIdx.flatMap fun x => entry x.2 x.1)

/-- A fuel list entry of 10 bytes (R108). -/
def State.fuelEntry (s : State) (i : Nat) (x : Nat × Bay) : List Byte :=
  let r := x.2
  [byteOf x.1, byteOf r.fuel.state.code] ++ s.enduranceBytes (10 * i + 2) r.fuel.endurance
  ++ [levelByte r.readings.fuelLevel,
      byteOf (r.fuel.listFlags + flagBit 4 r.defrost.fuelBlock + replyTimeFlags 5 6 r.readings.lastReply)]
  ++ s.replyTimeBytes (10 * i + 6) r.readings.lastReply

/-- The seconds since a list entry time, stopping at 65,535 (R124). -/
def State.secondsListed (s : State) (r : Bay) : Nat := min (s.seconds - r.door.listEntry.getD s.seconds) 65535

/-- A door list entry of 10 bytes (R124). -/
def State.doorEntry (s : State) (_i : Nat) (x : Nat × Bay) : List Byte :=
  let r := x.2
  [byteOf x.1, byteOf r.door.state.code] ++ be2 (s.secondsListed r) ++ be2 r.door.openRun
  ++ [byteOf (beaconCode r.door.beaconWanted), byteOf (beaconConfirmedCode r.door.beaconConfirmed),
      byteOf r.loop.presence.code, byteOf (flagBit 0 (s.claimed x.1))]

/-- A frost queue entry of 8 bytes (R198). -/
def State.queueEntryBytes (s : State) (_i : Nat) (q : QueueEntry) : List Byte :=
  match s.bay? q.bay with
  | none => [byteOf q.bay] ++ be4 q.entryTime ++ [0, 0, 0]
  | some r =>
    [byteOf q.bay] ++ be4 q.entryTime
    ++ [byteOf r.frost.urgency.code, byteOf (kindCode (some (kindNow r))),
        byteOf (flagBit 0 (s.grantable q.bay r) + flagBit 1 r.defrost.fuelBlock + flagBit 2 r.defrost.waitingReported)]

end Sys2Proof.Machine
end

