-- ==== Sys2Proof/Machine/LoopEvents.lean ====
section
/-!
DEFINITION. The meanings of the loop's events and of the door second: REPLY_RECEIVED, POLL_SLOT_END, DOOR_OPEN_SECOND.
-/
namespace Sys2Proof.Machine

/-- The outcome of a command in this model: every command has a next state. -/
abbrev Result := Host.Outcome State Fault Refusal

/-- REPLY_RECEIVED (R10 to R14, R19 to R24, R28 to R40). -/
def execReplyReceived (bytes : List Byte) (s : State) : Result := .next (s.takeReply bytes)

/-- POLL_SLOT_END (R4 to R6, R10 to R12, R16 to R18, R21). -/
def execPollSlotEnd (s : State) : Result := .next s.endSlot

/-- A second ends with the bay's stored door reading OPEN (R45, R120). With another reading, stored by a reply taken in the same
moment but first, the second is no door-open second, and it is over for the expiry that counted it (log 24). -/
def State.doorSecond (s : State) (b : Nat) : State :=
  s.onBay b fun r =>
    if r.readings.door = .opened then
      (s.modDoor b DoorRec.openSecond).modFrost b FrostRec.doorSecond
    else s.modFrost b FrostRec.secondOver

/-- DOOR_OPEN_SECOND (R120). -/
def execDoorOpenSecond (bay : Nat) (s : State) : Result := .next (s.doorSecond bay)

end Sys2Proof.Machine
end

