-- ==== Sys2Proof/Machine/BayRequests.lean ====
section
/-!
DEFINITION. The meanings of the requests about one bay, and of the three lists: BAY_READ, BEACON_SET, DEFROST_CANCEL,
DEFROST_REQUEST, DEPARTURE_SET, DOOR_LIST, FUEL_LIST, QUEUE_READ.
-/
namespace Sys2Proof.Machine

/-- What a request does on a bay of the committed plan; NO_SUCH_BAY on any other address (10.3). -/
def State.withBay (s : State) (b : Nat) (act : Bay → State × Reply) : State × Reply :=
  match s.bay? b with
  | some r => act r
  | none => (s, Reply.bare .noSuchBay)

/-- BAY_READ (R191). -/
def execBayRead (p : Port) (args : List Byte) (s : State) : Result :=
  .next (s.request p .bayRead (oneByte args) fun b s =>
    s.withBay b fun r => (s.useFree, Reply.done (s.baySummary b r)))

/-- The beacon state a byte names (R122, R205). -/
def beaconOfCode : Nat → Option Bool
  | 0 => some false
  | 1 => some true
  | _ => none

/-- BEACON SET: the state is judged first, then the bay (R122). -/
def State.beaconSet (s : State) (b code : Nat) : State × Reply :=
  match beaconOfCode code with
  | none => (s, Reply.bare .invalid)
  | some on =>
    s.withBay b fun _ => (s.modDoor b fun d => { d with beaconWanted := on, autoRaised := false }, Reply.done [])

/-- BEACON_SET (R122). -/
def execBeaconSet (p : Port) (args : List Byte) (s : State) : Result :=
  .next (s.request p .beaconSet (twoBytes args) fun a s => s.beaconSet a.1 a.2)

/-- The defrost state and the frost debt of a bay (R192, R205). -/
def Bay.defrostResult (r : Bay) : List Byte := [byteOf r.defrost.state.code, byteOf r.frost.debt]

/-- The frost debt and the urgency of a bay (R193, R205). -/
def Bay.frostResult (r : Bay) : List Byte := [byteOf r.frost.debt, byteOf r.frost.urgency.code]

/-- Result bytes read from a bay's record as it stands now. -/
def State.bayResult (s : State) (b : Nat) (f : Bay → List Byte) : List Byte :=
  match s.bay? b with
  | some r => f r
  | none => []

/-- DEFROST CANCEL on a bay of the plan (R83, R192). -/
def State.defrostCancel (s : State) (b : Nat) : State × Reply :=
  s.withBay b fun _ =>
    let out := s.cancel b
    if out.2 then (out.1, Reply.done (out.1.bayResult b Bay.defrostResult)) else (s, Reply.bare .wrongState)

/-- DEFROST_CANCEL (R192). -/
def execDefrostCancel (p : Port) (args : List Byte) (s : State) : Result :=
  .next (s.request p .defrostCancel (oneByte args) fun b s => s.defrostCancel b)

/-- DEFROST REQUEST on a bay of the plan (R56, R193). -/
def State.defrostRequest (s : State) (b : Nat) : State × Reply :=
  s.withBay b fun _ =>
    let t := s.requestDefrost b
    (t, Reply.done (t.bayResult b Bay.frostResult))

/-- DEFROST_REQUEST (R193). -/
def execDefrostRequest (p : Port) (args : List Byte) (s : State) : Result :=
  .next (s.request p .defrostRequest (oneByte args) fun b s => s.defrostRequest b)

/-- A departure written to the committed record and, where there is one, to the staged record (R162). -/
def State.writeDeparture (s : State) (b : Nat) (d : Option Nat) : State :=
  { s.modBay b fun r => { r with entry := { r.entry with departure := d } } with
    staged := { s.staged with bays := mapKey b (fun e => { e with departure := d }) s.staged.bays } }

/-- DEPARTURE SET on a bay of the plan: the departure, and the departure check at once (R162, R100). -/
def State.departureSet (s : State) (b : Nat) (d : Option Nat) : State × Reply :=
  s.withBay b fun _ => ((s.writeDeparture b d).departureCheck b, Reply.done [])

/-- DEPARTURE_SET (R162). -/
def execDepartureSet (p : Port) (args : List Byte) (s : State) : Result :=
  .next (s.request p .departureSet (departureArgs args) fun a s => s.departureSet a.1 a.2)

/-! ## Lists -/

/-- DOOR_LIST (R124). -/
def execDoorList (p : Port) (args : List Byte) (s : State) : Result :=
  .next (s.request p .doorList (oneByte args) fun start s =>
    (s, Reply.done (pageOf s.doorEntry s.doorList start)))

/-- FUEL_LIST (R108). -/
def execFuelList (p : Port) (args : List Byte) (s : State) : Result :=
  .next (s.request p .fuelList (oneByte args) fun start s =>
    (s.useFree, Reply.done (pageOf s.fuelEntry s.fuelList start)))

/-- QUEUE_READ (R198). -/
def execQueueRead (p : Port) (args : List Byte) (s : State) : Result :=
  .next (s.request p .queueRead (oneByte args) fun start s =>
    (s, Reply.done (pageOf s.queueEntryBytes s.queue start)))

end Sys2Proof.Machine
end

