-- ==== Sys2Proof/Machine/ClaimRequests.lean ====
section
/-!
DEFINITION. The meanings of CLAIM, CLAIM_RENEW and CLAIM_RELEASE (07 R129 to R137).
-/
namespace Sys2Proof.Machine

/-- What keeps a CLAIM from being granted: the first failing check of R129, with the results a refusal names (R205). -/
def State.claimRefusal (s : State) (p : Port) (b lease : Nat) : Option Reply :=
  if maxLease < lease then some (Reply.bare .invalid)
  else if !s.planned b || s.isMarked b then some (Reply.bare .noSuchBay)
  else match s.claimOf b with
    | some c => some ⟨.held, [byteOf (portCode c.holder), byteOf (claimKindCode c.holder)]⟩
    | none =>
      if portClaimLimit ≤ (s.port p).claimCount then some (Reply.bare .portLimit)
      else if claimTableLimit ≤ s.claims.length then some (Reply.bare .tableFull)
      else none

/-- CLAIM: the checks of R129, then the record and its effects, then the answer (R130, R131). -/
def State.claim (s : State) (p : Port) (b lease : Nat) : State × Reply :=
  match s.claimRefusal p b lease, s.bay? b with
  | some refusal, _ => (s, refusal)
  | none, none => (s, Reply.bare .noSuchBay)
  | none, some r =>
    let minutes := leaseLength r lease
    let t := s.beginClaim p b minutes
    (t, Reply.done [byteOf (claimKindCode p), byteOf minutes, byteOf (t.port p).claimCount])

/-- CLAIM (R129, R130). -/
def execClaim (p : Port) (args : List Byte) (s : State) : Result :=
  .next (s.request p .claim (twoBytes args) fun a s => s.claim p a.1 a.2)

/-- The lease length of a renewal: an argument of 0 asks for the bay's default now (R128, R133). -/
def State.renewLength (s : State) (b lease : Nat) : Nat :=
  match s.bay? b with
  | some r => leaseLength r lease
  | none => lease

/-- CLAIM RENEW: INVALID, NO_CLAIM, or the lease restarted (R133). -/
def State.claimRenew (s : State) (p : Port) (b lease : Nat) : State × Reply :=
  if maxLease < lease then (s, Reply.bare .invalid)
  else match s.ownClaim p b with
    | none => (s, Reply.bare .noClaim)
    | some c =>
      let minutes := s.renewLength b lease
      (s.renewClaim b minutes, Reply.done [byteOf (claimKindCode c.holder), byteOf minutes])

/-- CLAIM_RENEW (R133). -/
def execClaimRenew (p : Port) (args : List Byte) (s : State) : Result :=
  .next (s.request p .claimRenew (twoBytes args) fun a s => s.claimRenew p a.1 a.2)

/-- The figures of a fill in the answer to CLAIM RELEASE (R135, R205). -/
def Fill.bytes (f : Fill) : List Byte := be2 (f.litres.getD 65535) ++ [levelByte f.start, levelByte f.stop]

/-- CLAIM RELEASE: NO_CLAIM, or the claim ended, with the fill of a FUEL claim (R135). -/
def State.claimRelease (s : State) (p : Port) (b : Nat) : State × Reply :=
  match s.ownClaim p b with
  | none => (s, Reply.bare .noClaim)
  | some c =>
    (s.releaseClaim b c,
     Reply.done (byteOf (claimKindCode c.holder) :: if c.holder = .fuel then (s.fillOf b c).bytes else []))

/-- CLAIM_RELEASE (R135). -/
def execClaimRelease (p : Port) (args : List Byte) (s : State) : Result :=
  .next (s.request p .claimRelease (oneByte args) fun b s => s.claimRelease p b)

end Sys2Proof.Machine
end

