-- ==== Sys2Proof/Machine/ModeRequests.lean ====
section
/-!
DEFINITION. The meanings of MODE_SET, RESUME and LOOP_RESET (10 R195, R197; 09 R178 to R180).
-/
namespace Sys2Proof.Machine

/-- MODE SET: INVALID, WRONG_MODE while SILENT, or the change (R197). -/
def State.modeSet (s : State) (code : Nat) : State × Reply :=
  match LoopMode.ofCode code with
  | none => (s, Reply.bare .invalid)
  | some m =>
    if s.silence = .silent then (s, Reply.bare .wrongMode)
    else (s.changeMode m, Reply.done [byteOf s.mode.code, byteOf m.code])

/-- MODE_SET (R197). -/
def execModeSet (p : Port) (args : List Byte) (s : State) : Result :=
  .next (s.request p .modeSet (oneByte args) fun code s => s.modeSet code)

/-- The mode RESUME restores: the saved mode, which SILENT always holds (R177). -/
def State.modeSaved (s : State) : LoopMode := s.savedMode.getD s.mode

/-- RESUME: WRONG_STATE where the office is not silent, WRONG_MODE under RESET_ONLY, or the saved mode restored
(R179). -/
def State.resume (s : State) : State × Reply :=
  if s.silence = .silent then
    if s.yard.only.recovery = 0 then (s.recover s.modeSaved, Reply.done [byteOf s.modeSaved.code])
    else (s, Reply.bare .wrongMode)
  else (s, Reply.bare .wrongState)

/-- RESUME (R179). -/
def execResume (p : Port) (args : List Byte) (s : State) : Result :=
  .next (s.request p .resume (noArgs args) fun _ s => s.resume)

/-- LOOP_RESET (R195): DONE with the mode after the reset and the generation then in force. -/
def execLoopReset (p : Port) (args : List Byte) (s : State) : Result :=
  .next (s.request p .loopReset (noArgs args) fun _ s =>
    let t := s.loopReset
    (t, Reply.done (byteOf t.mode.code :: be2 t.generation)))

end Sys2Proof.Machine
end

