-- ==== Sys2Proof/Machine/TimerEvents.lean ====
section
/-!
DEFINITION. The meanings of the timer expiries. A command whose timer is not running, or has not run out on the timebase,
is an expiry that has not come about: it changes nothing (log 3).
-/
namespace Sys2Proof.Machine

/-- ACCRUAL_EXPIRY (R44 to R53). -/
def execAccrualExpiry (bay : Nat) (s : State) : Result :=
  .next (s.onBay bay fun r => if r.frost.accrualEnd ≤ s.now then s.accrualExpires bay else s)

/-- DEFROST_TIMER_EXPIRY (R78, R81, R82, R84, R88). -/
def execDefrostTimerExpiry (bay : Nat) (s : State) : Result :=
  .next (s.onBay bay fun r => if s.timerDue r.defrost.timer then s.defrostTimerExpires bay else s)

/-- DRIP_TIMER_EXPIRY (R85). -/
def execDripTimerExpiry (bay : Nat) (s : State) : Result :=
  .next (s.onBay bay fun r =>
    if r.defrost.state = .drip ∧ s.due r.defrost.dripEnd = true then s.dripTimerExpires bay else s)

/-- GRACE_TIMER_EXPIRY (R114). -/
def execGraceTimerExpiry (bay : Nat) (s : State) : Result :=
  .next (s.onBay bay fun r => if s.due r.door.graceEnd then s.graceExpires bay else s)

/-- LEASE_EXPIRY (R136): the timebase has reached the lease end. -/
def execLeaseExpiry (bay : Nat) (s : State) : Result :=
  .next (match s.claimOf bay with
    | some c => if c.leaseEnd ≤ s.seconds then s.expireClaim bay c else s
    | none => s)

/-- The clock advances by one minute and stays at its last, and the minute timer starts again (R163). -/
def State.clockAdvances (s : State) : State :=
  match s.clock with
  | none => s
  | some m => { s with clock := some (min (m + 1) maxMinute), minuteEnd := some (s.inSeconds 60) }.departureChecks

/-- YARD_CLOCK_ADVANCE (R163, R100). -/
def execYardClockAdvance (s : State) : Result := .next (if s.due s.minuteEnd then s.clockAdvances else s)

/-- SILENCE_TIMER_EXPIRY (R177, R178). -/
def execSilenceTimerExpiry (s : State) : Result :=
  .next (match s.silenceTimer with
    | some t => if t.deadline ≤ s.now then s.silenceExpires t else s
    | none => s)

end Sys2Proof.Machine
end

