-- ==== Sys2Proof/Machine/PlanRequests.lean ====
section
/-!
DEFINITION. The meanings of the Plan Store's requests: STAGE_YARD, STAGE_ROW, STAGE_BAY, STAGE_DROP, STAGE_CLEAR,
PLAN_COMMIT, CLOCK_SET (08).
-/
namespace Sys2Proof.Machine

/-- What a staging request does; COMMIT_PENDING while a commit is pending (R148). -/
def State.staging (s : State) (act : State × Reply) : State × Reply :=
  if s.commitPending then (s, Reply.bare .commitPending) else act

/-- STAGE YARD (R149). -/
def State.stageYard (s : State) (l : List StageSetting) : State × Reply :=
  s.staging <|
    if settingsOk StageSetting.okYard l then
      ({ s with staged := { s.staged with yard := l.foldl Yard.stage s.staged.yard } }, Reply.done [])
    else (s, Reply.bare .invalid)

/-- STAGE_YARD (R149). -/
def execStageYard (p : Port) (args : List Byte) (s : State) : Result :=
  .next (s.request p .stageYard (countedSettings args) fun l s => s.stageYard l)

/-- STAGE ROW (R150). -/
def State.stageRow (s : State) (row : Nat) (l : List StageSetting) : State × Reply :=
  s.staging <|
    if decide (row ≤ 7) && settingsOk StageSetting.okRow l then
      ({ s with staged := { s.staged with rows := s.staged.rows.modify row fun q => l.foldl Profile.stage q } },
       Reply.done [])
    else (s, Reply.bare .invalid)

/-- STAGE_ROW (R150). -/
def execStageRow (p : Port) (args : List Byte) (s : State) : Result :=
  .next (s.request p .stageRow (namedSettings args) fun a s => s.stageRow a.1 a.2)

/-- Whether an address can name a bay (R151, R152). -/
def addressOk (b : Nat) : Bool := decide (1 ≤ b) && decide (b ≤ 127)

/-- STAGE BAY (R151). -/
def State.stageBay (s : State) (b : Nat) (l : List StageSetting) : State × Reply :=
  s.staging <|
    if !addressOk b then (s, Reply.bare .noSuchBay)
    else if !settingsOk StageSetting.okBay l then (s, Reply.bare .invalid)
    else match findKey b s.staged.bays with
      | some e =>
        ({ s with staged := { s.staged with bays := putKey b (l.foldl PlanBay.stage e) s.staged.bays } }, Reply.done [])
      | none =>
        if namesField .row l && namesField .genset l then
          ({ s with staged := { s.staged with bays := putKey b (l.foldl PlanBay.stage PlanBay.blank) s.staged.bays } },
           Reply.done [])
        else (s, Reply.bare .invalid)

/-- STAGE_BAY (R151). -/
def execStageBay (p : Port) (args : List Byte) (s : State) : Result :=
  .next (s.request p .stageBay (namedSettings args) fun a s => s.stageBay a.1 a.2)

/-- STAGE DROP (R152). -/
def State.stageDrop (s : State) (b : Nat) : State × Reply :=
  s.staging <|
    if (findKey b s.staged.bays).isSome then
      ({ s with staged := { s.staged with bays := dropKey b s.staged.bays } }, Reply.done [])
    else (s, Reply.bare .noSuchBay)

/-- STAGE_DROP (R152). -/
def execStageDrop (p : Port) (args : List Byte) (s : State) : Result :=
  .next (s.request p .stageDrop (oneByte args) fun b s => s.stageDrop b)

/-- STAGE CLEAR (R153). -/
def State.stageClear (s : State) : State × Reply := s.staging ({ s with staged := s.committed }, Reply.done [])

/-- STAGE_CLEAR (R153). -/
def execStageClear (p : Port) (args : List Byte) (s : State) : Result :=
  .next (s.request p .stageClear (noArgs args) fun _ s => s.stageClear)

/-- The three result bytes of a refused scan (R154, R205). -/
def CommitFailure.bytes (f : CommitFailure) : List Byte := [byteOf f.record, byteOf f.number, byteOf f.field]

/-- PLAN COMMIT: COMMIT_PENDING, the scan's first failure, or the commit accepted; where no round runs it is applied at
once, and a round begins where R6 calls for one (R154, R157, R161). DESIGN CHOICE: a round runs while a slot is in progress, in HALT
too, so that a commit accepted there during the round's last slot waits for that slot's end (log 43). -/
def State.planCommit (s : State) : State × Reply :=
  if s.commitPending then (s, Reply.bare .commitPending)
  else match s.commitFailure with
    | some f => (s, ⟨f.code, f.bytes⟩)
    | none =>
      let t := s.acceptCommit
      if s.slot.isSome then (t, Reply.done (be2 (nextGeneration s.generation) ++ [0]))
      else (t.applyCommit.beginRound, Reply.done (be2 (nextGeneration s.generation) ++ [1]))

/-- PLAN_COMMIT (R154 to R161). -/
def execPlanCommit (p : Port) (args : List Byte) (s : State) : Result :=
  .next (s.request p .planCommit (noArgs args) fun _ s => s.planCommit)

/-- The yard clock set, the minute timer started, the departure checks made (R163, R100). -/
def State.setClock (s : State) (m : Nat) : State :=
  { s with clock := some m, minuteEnd := some (s.inSeconds 60) }.departureChecks

/-- CLOCK_SET (R163). -/
def execClockSet (p : Port) (args : List Byte) (s : State) : Result :=
  .next (s.request p .clockSet (minuteArg args) fun m s => (s.setClock m, Reply.done []))

end Sys2Proof.Machine
end

