-- ==== Sys2Proof/Machine/PortRequests.lean ====
section
/-!
DEFINITION. The meanings of the requests that a port interface and the Event Router own: ATTN_SET, EVENT_FETCH,
MIRROR_SET, STATUS (10).
-/
namespace Sys2Proof.Machine

/-! ## ATTN SET (R190) -/

/-- The class count an argument names. -/
def ClassCount.named : Nat → Option ClassCount
  | 1 => some .one
  | 2 => some .two
  | 4 => some .four
  | _ => none

/-- How many classes a class count has, each a bit of the class set (R189, R205). -/
def ClassCount.classes : ClassCount → Nat
  | .one => 1
  | .two => 2
  | .four => 4

/-- ATTN SET on a port: a count and a set of its classes, or INVALID (R190; log 23). -/
def State.attnSet (s : State) (p : Port) (count set : Nat) : State × Reply :=
  match ClassCount.named count with
  | none => (s, Reply.bare .invalid)
  | some n =>
    if 2 ^ n.classes ≤ set then (s, Reply.bare .invalid)
    else
      let t := s.modPort p fun ps => PortState.setAttn { ps with classCount := n, mask := BitVec.ofNat 4 set }
      (t, Reply.done [byteOf (flagBit 0 (t.port p).attn)])

/-- ATTN_SET (R190). -/
def execAttnSet (p : Port) (args : List Byte) (s : State) : Result :=
  .next (s.request p .attnSet (twoBytes args) fun a s => s.attnSet p a.1 a.2)

/-! ## EVENT FETCH (R194) -/

/-- The oldest entry removed from a queue: the overflow mark clears when that empties it, and the line is set afresh. -/
def PortState.dropOldest (ps : PortState) : PortState :=
  PortState.setAttn { ps with queue := ps.queue.tail, overflow := ps.overflow && !ps.queue.tail.isEmpty }

/-- EVENT FETCH on a port: the oldest entry, the overflow mark before the fetch, the entries left; EMPTY where there is
none (R194, R205). -/
def State.eventFetch (s : State) (p : Port) : State × Reply :=
  let ps := s.port p
  match ps.queue with
  | [] => (s, ⟨.empty, [byteOf (flagBit 0 ps.overflow)]⟩)
  | e :: rest =>
    ((s.modPort p PortState.dropOldest).useFree,
     Reply.done (e.record s.free ++ [byteOf (flagBit 0 ps.overflow), byteOf rest.length]))

/-- EVENT_FETCH (R194). -/
def execEventFetch (p : Port) (args : List Byte) (s : State) : Result :=
  .next (s.request p .eventFetch (noArgs args) fun _ s => s.eventFetch p)

/-! ## MIRROR SET (R196) -/

/-- How many mirror rules there are (R188). -/
def mirrorRules : Nat := 4

/-- The rule that the arguments of an operation 1 give, if R196 allows it. -/
def MirrorArgs.rule? (a : MirrorArgs) : Option MirrorRule :=
  match portOfCode a.source, portOfCode a.dest with
  | some source, some dest =>
    if a.last < a.first ∨ 127 < a.last ∨ a.classes = 0 ∨ 15 < a.classes ∨ dest = source then none
    else some { source := source, first := a.first, last := a.last, classes := BitVec.ofNat 4 a.classes, dest := dest }
  | _, _ => none

/-- A mirror rule emptied or replaced, or INVALID (R196). -/
def State.mirrorSet (s : State) (a : MirrorArgs) : State × Reply :=
  if mirrorRules ≤ a.rule then (s, Reply.bare .invalid)
  else if a.set then
    match a.rule? with
    | none => (s, Reply.bare .invalid)
    | some m => ({ s with mirrors := s.mirrors.set a.rule (some m) }, Reply.done [])
  else ({ s with mirrors := s.mirrors.set a.rule none }, Reply.done [])

/-- MIRROR_SET (R196). -/
def execMirrorSet (p : Port) (args : List Byte) (s : State) : Result :=
  .next (s.request p .mirrorSet (mirrorArgs args) fun a s => s.mirrorSet a)

/-! ## STATUS (R199) -/

/-- STATUS (R199). -/
def execStatus (p : Port) (args : List Byte) (s : State) : Result :=
  .next (s.request p .status (noArgs args) fun _ s => (s, Reply.done (s.statusBytes p)))

end Sys2Proof.Machine
end

