-- ==== Sys2Proof/Machine/ShedEvents.lean ====
section
/-!
DEFINITION. The meanings of the SHED line's events and of the RESET line: SHED_LINE_CHANGE, SHED_FILTER_EXPIRY,
DWELL_TIMER_EXPIRY, RESTART_GAP_EXPIRY, FULL_RESET. An expiry that has not come about changes nothing (log 3).
-/
namespace Sys2Proof.Machine

/-- SHED_LINE_CHANGE (R166). -/
def execShedLineChange (asserted : Bool) (s : State) : Result := .next (s.shedLineTakes asserted)

/-- SHED_FILTER_EXPIRY (R166, R168 to R171). -/
def execShedFilterExpiry (s : State) : Result := .next (if s.due s.filterEnd then s.filterTakes else s)

/-- DWELL_TIMER_EXPIRY (R170). -/
def execDwellTimerExpiry (s : State) : Result := .next (if s.timerDue s.dwell then s.dwellElapses else s)

/-- RESTART_GAP_EXPIRY (R171). -/
def execRestartGapExpiry (s : State) : Result := .next (if s.due s.gapEnd then s.leaveShed else s)

/-- FULL_RESET (R27, R43, R63, R91, R111, R126, R144, R165, R167, R182, R201). -/
def execFullReset (s : State) : Result := .next s.fullReset

end Sys2Proof.Machine
end

