-- ==== Sys2Proof/Machine/Transactions.lean ====
section
/-!
DEFINITION. The meanings of a transaction's beginning and of transactions that carry no request of the part:
TRANSACTION_BEGIN, NO_BYTE_TRANSACTION, BAD_FRAME, UNKNOWN_REQUEST (10 R183, R184, R176).
-/
namespace Sys2Proof.Machine

/-- The select line is asserted: the port leaves idle and begins shifting out its answer holder, and after that filler
(R183; `PortState.byteOut`). A transaction that a full reset abandoned is over (R201). -/
def PortState.beginTransaction (ps : PortState) : PortState :=
  if ps.inTransaction then ps else { ps with inTransaction := true, abandoned := false, shiftOut := ps.answerFrame }

/-- TRANSACTION_BEGIN (R183). -/
def execTransactionBegin (p : Port) (s : State) : Result := .next (s.modPort p PortState.beginTransaction)

/-- NO_BYTE_TRANSACTION (R183): holder, answer number and silence timer as they stand. -/
def execNoByteTransaction (p : Port) (s : State) : Result := .next (s.modPort p PortState.endTransaction)

/-- BAD_FRAME (R184 check 1): it does not restart the silence timer (R176). -/
def execBadFrame (p : Port) (s : State) : Result := .next (s.takeFrame p fun s => s.answer p none (Reply.bare .badFrame))

/-- UNKNOWN_REQUEST (R184 check 2), naming the code received. -/
def execUnknownRequest (p : Port) (code : Byte) (s : State) : Result :=
  .next (s.takeFrame p fun s => (s.frameTaken p).answer p (some code) ⟨.unknownRequest, [code]⟩)

end Sys2Proof.Machine
end

