-- ==== Sys2Proof/Machine/Dispatch.lean ====
section
/-! DEFINITION. The meaning of each command: one arm per row of spec/opcode_table.json. -/
namespace Sys2Proof.Machine

/-- A command's effect on everything but the queue of waiting commands. -/
def exec (i : Instr) (s : State) : Host.Outcome State Fault Refusal :=
  match i with
  | .replyReceived bytes => Sys2Proof.Machine.execReplyReceived bytes s
  | .pollSlotEnd => Sys2Proof.Machine.execPollSlotEnd s
  | .doorOpenSecond bay => Sys2Proof.Machine.execDoorOpenSecond bay s
  | .accrualExpiry bay => Sys2Proof.Machine.execAccrualExpiry bay s
  | .defrostTimerExpiry bay => Sys2Proof.Machine.execDefrostTimerExpiry bay s
  | .dripTimerExpiry bay => Sys2Proof.Machine.execDripTimerExpiry bay s
  | .graceTimerExpiry bay => Sys2Proof.Machine.execGraceTimerExpiry bay s
  | .leaseExpiry bay => Sys2Proof.Machine.execLeaseExpiry bay s
  | .yardClockAdvance => Sys2Proof.Machine.execYardClockAdvance s
  | .shedLineChange asserted => Sys2Proof.Machine.execShedLineChange asserted s
  | .shedFilterExpiry => Sys2Proof.Machine.execShedFilterExpiry s
  | .dwellTimerExpiry => Sys2Proof.Machine.execDwellTimerExpiry s
  | .restartGapExpiry => Sys2Proof.Machine.execRestartGapExpiry s
  | .silenceTimerExpiry => Sys2Proof.Machine.execSilenceTimerExpiry s
  | .badFrame port => Sys2Proof.Machine.execBadFrame port s
  | .unknownRequest port code => Sys2Proof.Machine.execUnknownRequest port code s
  | .noByteTransaction port => Sys2Proof.Machine.execNoByteTransaction port s
  | .attnSet port args => Sys2Proof.Machine.execAttnSet port args s
  | .bayRead port args => Sys2Proof.Machine.execBayRead port args s
  | .beaconSet port args => Sys2Proof.Machine.execBeaconSet port args s
  | .claim port args => Sys2Proof.Machine.execClaim port args s
  | .claimRelease port args => Sys2Proof.Machine.execClaimRelease port args s
  | .claimRenew port args => Sys2Proof.Machine.execClaimRenew port args s
  | .clockSet port args => Sys2Proof.Machine.execClockSet port args s
  | .defrostCancel port args => Sys2Proof.Machine.execDefrostCancel port args s
  | .defrostRequest port args => Sys2Proof.Machine.execDefrostRequest port args s
  | .departureSet port args => Sys2Proof.Machine.execDepartureSet port args s
  | .doorList port args => Sys2Proof.Machine.execDoorList port args s
  | .eventFetch port args => Sys2Proof.Machine.execEventFetch port args s
  | .fuelList port args => Sys2Proof.Machine.execFuelList port args s
  | .loopReset port args => Sys2Proof.Machine.execLoopReset port args s
  | .mirrorSet port args => Sys2Proof.Machine.execMirrorSet port args s
  | .modeSet port args => Sys2Proof.Machine.execModeSet port args s
  | .planCommit port args => Sys2Proof.Machine.execPlanCommit port args s
  | .queueRead port args => Sys2Proof.Machine.execQueueRead port args s
  | .resume port args => Sys2Proof.Machine.execResume port args s
  | .stageBay port args => Sys2Proof.Machine.execStageBay port args s
  | .stageClear port args => Sys2Proof.Machine.execStageClear port args s
  | .stageDrop port args => Sys2Proof.Machine.execStageDrop port args s
  | .stageRow port args => Sys2Proof.Machine.execStageRow port args s
  | .stageYard port args => Sys2Proof.Machine.execStageYard port args s
  | .status port args => Sys2Proof.Machine.execStatus port args s
  | .fullReset => Sys2Proof.Machine.execFullReset s
  | .transactionBegin port => Sys2Proof.Machine.execTransactionBegin port s

end Sys2Proof.Machine
end

