-- ==== Sys2Proof/Machine/Tick.lean ====
section
/-!
DEFINITION. The timebase's step, taken when no command waits: the events that come due are put in the queue as the
commands that they are (00 Conventions; logs 1, 2).
-/
namespace Sys2Proof.Machine

/-- Whether the step ends a second of the timebase. -/
def State.atSecond (s : State) : Bool := decide (s.now % stepsPerSecond = 0)

/-- A second that an accrual expiry counted in advance ends without a report where the door reads OPEN no longer (R45;
log 24). -/
def Bay.secondEnds (r : Bay) : Bay :=
  if r.readings.door = .opened then r else { r with frost := r.frost.secondOver }

/-- A command for each bay of which a test holds, by rising address. -/
def State.forBays (s : State) (test : Nat → Bay → Bool) (command : Nat → Instr) : List Instr :=
  (s.bays.filter fun p => test p.1 p.2).map fun p => command p.1

/-- A command where a test holds. -/
def whenDue (test : Bool) (command : Instr) : List Instr := if test then [command] else []

/-- The part-wide events that are due (log 2). -/
def State.duePart (s : State) : List Instr :=
  whenDue (s.due s.filterEnd) .shedFilterExpiry ++ whenDue (s.timerDue s.dwell) .dwellTimerExpiry
    ++ whenDue (s.due s.gapEnd) .restartGapExpiry ++ whenDue s.silenceDue .silenceTimerExpiry
    ++ whenDue (s.due s.minuteEnd) .yardClockAdvance ++ whenDue s.slot.isSome .pollSlotEnd

/-- The bay events that are due, one kind after another (log 2). -/
def State.dueBays (s : State) : List Instr :=
  ((s.claims.filter fun p => decide (p.2.leaseEnd ≤ s.seconds)).map fun p => .leaseExpiry p.1)
    ++ s.forBays (fun _ r => s.due r.door.graceEnd) .graceTimerExpiry
    ++ s.forBays (fun _ r => s.timerDue r.defrost.timer) .defrostTimerExpiry
    ++ s.forBays (fun _ r => s.due r.defrost.dripEnd) .dripTimerExpiry
    ++ s.forBays (fun _ r => decide (r.frost.accrualEnd ≤ s.now)) .accrualExpiry
    ++ if s.atSecond then s.forBays (fun _ r => r.readings.door == .opened) .doorOpenSecond else []

/-- The timebase a step further, with the seconds that end. -/
def State.advance (s : State) : State :=
  let s := { s with now := s.now + 1 }
  if s.atSecond then { s with bays := s.bays.map fun p => (p.1, p.2.secondEnds) } else s

/-- The timebase's step: 25 ms, the length of a poll slot (R4), then the events it brings. -/
def State.tick (s : State) : State :=
  let t := s.advance
  { t with pending := t.pending ++ t.duePart ++ t.dueBays }

end Sys2Proof.Machine
end

