-- ==== Sys2Proof/Safety.lean ====
section
/-!
DEFINITION. What every run keeps, in the terms the statements use: the canonical form of the keyed lists, the event
queues and ATTN lines (10), the claim table (07 R127), the watch list (01 R7), the frost debts (03 R49).
-/
namespace Sys2Proof.Machine

/-- A keyed list in its canonical form: the keys rise strictly. -/
abbrev Rising {α : Type} (l : List (Nat × α)) : Prop := (keysOf l).Pairwise (· < ·)

/-- The keyed lists of the state are in their canonical form, so that equal contents are equal lists. -/
structure State.FormOk (s : State) : Prop where
  bays : Rising s.bays
  staged : Rising s.staged.bays
  claims : Rising s.claims

/-- A port as R186, R187, R189 and R194 keep it: at most 32 entries, no two of one kind and bay, counts from 1 to 255, an
overflow mark only where an entry stands, the ATTN line at the level that the queue and the mask give; and a port whose
transaction a full reset abandoned as R201 leaves it, idle and with nothing answered. -/
structure PortState.Ok (ps : PortState) : Prop where
  bound : ps.queue.length ≤ queueCapacity
  distinct : ps.queue.Pairwise fun a b => ¬(a.kind = b.kind ∧ a.bay = b.bay)
  counts : ∀ e ∈ ps.queue, 1 ≤ e.count ∧ e.count ≤ 255
  mark : ps.overflow = true → ps.queue ≠ []
  line : ps.attn = ps.attnLevel
  select : ps.abandoned = true → ps.inTransaction = false ∧ ps.holder = none ∧ ps.number = 0

/-- Every port is so. -/
def State.PortsOk (s : State) : Prop := ∀ p, (s.port p).Ok

/-- The watch list holds at most 4 bays, none twice (R7). -/
def WatchBound (w : List Nat) : Prop := w.length ≤ watchCapacity ∧ w.Nodup

/-- How many claims of the table a port holds. -/
def State.claimsHeld (s : State) (p : Port) : Nat := (s.claims.filter fun c => c.2.holder = p).length

/-- The claim table as R127 keeps it: one record per bay, at most 32, each port's count that of its records and at most
12, every claimed bay in the committed plan. -/
structure State.ClaimsOk (s : State) : Prop where
  form : Rising s.claims
  bound : s.claims.length ≤ claimTableLimit
  counts : ∀ p, (s.port p).claimCount = s.claimsHeld p
  portBound : ∀ p, s.claimsHeld p ≤ portClaimLimit
  planned : ∀ b, s.claimed b = true → s.planned b = true

/-- Every bay that the committed or the staged plan holds has an address from 1 to 127 (08 R145). -/
structure State.AddressesOk (s : State) : Prop where
  committed : ∀ b ∈ s.addresses, 1 ≤ b ∧ b ≤ 127
  staged : ∀ b ∈ keysOf s.staged.bays, 1 ≤ b ∧ b ≤ 127

/-- The watch list as R7 to R9 keep it: at most 4 bays, none twice, each with a watch cause, and no bay with a cause off
the list while it has room; a claim stands only on a planned bay. -/
structure State.WatchOk (s : State) : Prop where
  form : Rising s.bays
  bound : WatchBound s.watch
  caused : ∀ b ∈ s.watch, s.hasCause b = true
  filled : ∀ b, s.hasCause b = true → b ∈ s.watch ∨ s.watch.length = watchCapacity
  planned : ∀ b, s.claimed b = true → s.planned b = true

/-- Entry time and join number of every queue entry, and those that the GRANTED bays keep (04 R65, R66). -/
def State.tickets (s : State) : List (Nat × Nat) :=
  s.queue.map (fun q => (q.entryTime, q.join)) ++
    (s.bays.filter fun p => p.2.defrost.state = .granted).filterMap fun p => p.2.defrost.kept

/-- Whether a defrost state is one in which a record may hold a shore slot (04, table before R65). -/
def DefrostState.mayHoldSlot : DefrostState → Prop
  | .granted | .running | .stopping | .unknown => True
  | .clear | .queued | .drip => False

/-- The frost queue and the shore slots as R65, R66 and R75 keep them: each bay once, exactly the QUEUED bays, by rising
join number and by entry time; GRANTED bays keep their ticket; the slot-holder count is the number of records whose flag
is set. -/
structure State.QueueOk (s : State) : Prop where
  form : Rising s.bays
  once : s.queuedBays.Nodup
  exact : ∀ b, b ∈ s.queuedBays ↔ s.inDefrost b .queued = true
  order : s.queue.Pairwise fun x y => x.join < y.join ∧ x.entryTime ≤ y.entryTime
  kept : ∀ p ∈ s.bays, p.2.defrost.state = .granted → p.2.defrost.kept.isSome = true
  joins : (s.tickets.map Prod.snd).Nodup
  times : ∀ x ∈ s.tickets, ∀ y ∈ s.tickets, x.2 < y.2 → x.1 ≤ y.1
  recent : ∀ x ∈ s.tickets, x.1 ≤ s.seconds ∧ x.2 ≤ s.lastJoin
  flags : ∀ p ∈ s.bays, p.2.defrost.slot = true → p.2.defrost.state.mayHoldSlot
  count : s.slotHolders = (s.bays.filter fun p => p.2.defrost.slot).length

/-- The shore budget as R68, R75 and R155 keep it: the count of slots held never exceeds the committed S, nor the S of a
pending plan; the fallback slot counts do not exceed the S beside them. -/
structure State.BudgetOk (s : State) : Prop where
  held : s.slotHolders ≤ s.yard.only.slots
  fallback : s.fallback.slots ≤ s.yard.only.slots
  pendingHeld : s.commitPending = true → s.slotHolders ≤ s.staged.yard.only.slots
  pendingFallback : s.commitPending = true → s.staged.yard.only.fbSlots ≤ s.staged.yard.only.slots

/-- The shed state as R168 to R171 keep it: slots are held in DRAINING and none in SHED or RESTART, the dwell timer stands in
SHED alone, the restart gap runs in RESTART alone, a release is remembered in SHED alone. -/
structure State.ShedOk (s : State) : Prop where
  draining : s.shed = .draining → s.slotHolders ≠ 0
  empty : s.shed = .shed ∨ s.shed = .restart → s.slotHolders = 0
  dwell : s.shed = .shed ↔ s.dwell ≠ .absent
  gap : s.shed = .restart ↔ s.gapEnd.isSome = true
  release : s.releaseSeen = true → s.shed = .shed

/-- The four urgency thresholds rise strictly. -/
def Settings.Rise (st : Settings Nat) : Prop := st.eligible < st.due ∧ st.due < st.urgent ∧ st.urgent < st.forced

/-- The resolved settings as R147 and R156 keep them: each bay's thresholds rise strictly and its critical limit lies
below its low limit, in the committed plan and, while a commit is pending, in the pending plan. -/
structure State.SettingsOk (s : State) : Prop where
  committed : ∀ p ∈ s.bays, p.2.settings.Rise ∧ p.2.settings.criticalLimit < p.2.settings.lowLimit
  pending : s.commitPending = true → ∀ p ∈ s.staged.bays,
    (s.staged.resolve p.2).Rise ∧ (s.staged.resolve p.2).criticalLimit < (s.staged.resolve p.2).lowLimit

/-- The counters and readings of a bay's record within the ranges that the spec gives them (01 R11, 02 R30, R31, R33, R35,
03 R45, R49, R52, 04 R77, R78, 05 R94, 06 R120, 11 R204). -/
structure Bay.InRange (r : Bay) : Prop where
  missCount : r.loop.missCount ≤ 255
  sends : ∀ f, r.loop.flight = some f → 1 ≤ f.sends ∧ f.sends ≤ 255
  doorUnknownRun : r.readings.doorUnknownRun ≤ 255
  invalidFuelRun : r.readings.invalidFuelRun ≤ 255
  fuelLevel : ∀ l, r.readings.fuelLevel = some l → l ≤ 100
  coil : ∀ c, r.readings.coil = some c → -500 ≤ c ∧ c ≤ 500
  returnAir : ∀ c, r.readings.returnAir = some c → -500 ≤ c ∧ c ≤ 500
  burnRate : r.readings.burnRate ≤ 255
  mismatchGen : r.readings.mismatchGen ≤ 65535
  faultCode : ∀ c, r.readings.faultCode = some c → c ≤ 255
  debt : r.frost.debt ≤ 255
  doorSeconds : r.frost.doorSeconds ≤ 3600
  intervalCount : r.frost.intervalCount ≤ 255
  checkCount : r.defrost.checkCount ≤ 1
  startFailures : r.defrost.startFailures ≤ 3
  endurance : ∀ e, r.fuel.endurance = some e → e ≤ 65535
  openRun : r.door.openRun ≤ 65535

/-- A full set of settings within the ranges of R146. -/
def Settings.InRange (st : Settings Nat) : Prop := ∀ f ∈ settingFields, f.range.1 ≤ st.get f ∧ st.get f ≤ f.range.2

/-- Every yard-only field of a yard profile within the ranges of R146. -/
def YardOnly.InRange (y : YardOnly) : Prop := ∀ f ∈ yardFields, f.inRange (y.get f) = true

/-- The fallback profile that a yard profile gives (08 R159 step 4). -/
def YardOnly.fallbackProfile (y : YardOnly) : FallbackProfile :=
  { slots := y.fbSlots, eligible := y.fbEligible, due := y.fbDue, urgent := y.fbUrgent, forced := y.fbForced,
    raisePeriod := y.fbRaise }

/-- The values that a plan holds within the ranges of R146: the yard profile's fields, the fields that the row profiles give,
each bay record's row, genset setting, departure and overrides. -/
structure Plan.InRange (p : Plan) : Prop where
  yard : p.yard.settings.InRange ∧ p.yard.only.InRange
  rows : ∀ n < 8, ∀ f v, (p.row n).get f = some v → f.range.1 ≤ v ∧ v ≤ f.range.2
  bays : ∀ q ∈ p.bays, q.2.row ≤ 7 ∧ q.2.genset ≤ 1 ∧ (∀ d, q.2.departure = some d → d ≤ 4294967295) ∧
    ∀ f v, q.2.overrides.get f = some v → f.range.1 ≤ v ∧ v ≤ f.range.2

/-- Every counter and setting in its range: the bays' records and resolved settings, the committed plan and the fallback profile
copied from it, a pending plan and what it resolves, the claims' leases and start levels, and the part-wide counters (03 R49,
04 R71, 05 R94, R103, 07 R128, 08 R146, R155, R159, R161, R163, 09 R176). -/
structure State.CountersOk (s : State) : Prop where
  bays : ∀ p ∈ s.bays, p.2.InRange ∧ p.2.settings.InRange
  committed : s.committed.InRange
  fallback : s.fallback = s.yard.only.fallbackProfile
  pending : s.commitPending = true → s.staged.InRange ∧ ∀ p ∈ s.staged.bays, (s.staged.resolve p.2).InRange
  claims : ∀ c ∈ s.claims, 1 ≤ c.2.leaseMinutes ∧ c.2.leaseMinutes ≤ 240 ∧ ∀ l, c.2.fillStart = some l → l ≤ 100
  raiseCounter : s.raiseCounter ≤ 64
  generation : s.generation ≤ 65535
  clock : ∀ m, s.clock = some m → m ≤ 4294967295
  silence : ∀ x, s.silenceTimer = some x → x.limit ≤ 600

/-- In HALT the round position is clear and a slot still in progress is the last of its round (01 R3). -/
structure State.HaltOk (s : State) : Prop where
  position : s.mode = .halt → s.nextMain = none
  ending : s.mode = .halt → s.slot.isSome = true → s.roundEnding = true

/-! ## Terms of the statements -/

/-- A frame on the port ends a transaction that no full reset has abandoned, so that it is taken (10 R183, R201). -/
abbrev State.Takes (s : State) (p : Port) : Prop := (s.port p).abandoned = false

/-- A slot is the last of its round (01 R3, R6). -/
def State.RoundEnds (s : State) (sl : Slot) : Prop :=
  s.roundEnding = true ∨ sl.watch = true ∧ s.nextMain = none ∨
    sl.watch = false ∧ s.watch = [] ∧ ∀ c ∈ s.addresses, c ≤ sl.bay

/-- Fuel holds a queued bay: an ENGINE-kind bay at DUE or higher, or a SHORE-kind bay at FORCED, whose endurance is unknown
or below its reserve (04 R72). -/
def Bay.FuelHolds (r : Bay) : Prop :=
  (∀ e, r.fuel.endurance = some e → e < r.settings.defrostReserve) ∧
    (r.readings.sourceInUse = .engine ∧ r.frost.urgency ∈ [Urgency.due, .urgent, .forced] ∨
      r.readings.sourceInUse ≠ .engine ∧ r.frost.urgency = .forced)

/-- What a selection run leaves: no shore grant that qualifies, no grantable ENGINE-kind bay at DUE or higher and no grantable
SHORE-kind bay at FORCED but those that fuel or the want of a genset holds, each with its marks, and no fuel-block mark
on a bay that fuel does not hold (04 R69 to R73). -/
structure State.Settled (t : State) : Prop where
  shore : t.pickShore = none
  block : ∀ b ∈ t.queuedBays, ∀ r, t.bay? b = some r → r.defrost.fuelBlock = true → r.FuelHolds
  engine : ∀ b ∈ t.queuedBays, ∀ r, t.bay? b = some r → t.grantable b r = true → r.readings.sourceInUse = .engine →
    r.frost.urgency ∈ [Urgency.due, .urgent, .forced] → r.defrost.fuelBlock = true
  forced : ∀ b ∈ t.queuedBays, ∀ r, t.bay? b = some r → t.grantable b r = true → r.readings.sourceInUse ≠ .engine →
    r.frost.urgency = .forced → r.defrost.waitingReported = true ∧ (r.entry.genset = 1 → r.defrost.fuelBlock = true)

/-- How many argument bytes a request has, where the count is fixed (11 R205). -/
def requestArgCount : Request → Option Nat
  | .eventFetch | .loopReset | .planCommit | .resume | .stageClear | .status => some 0
  | .bayRead | .claimRelease | .defrostCancel | .defrostRequest | .doorList | .fuelList | .modeSet | .queueRead
  | .stageDrop => some 1
  | .attnSet | .beaconSet | .claim | .claimRenew => some 2
  | .clockSet => some 4
  | .departureSet => some 6
  | .mirrorSet => some 7
  | .stageBay | .stageRow | .stageYard => none

/-- Where the setting count of a staging request stands. -/
def requestCountAt : Request → Option Nat
  | .stageYard => some 0
  | .stageRow | .stageBay => some 1
  | _ => none

/-- Argument bytes without the count or the form that the request requires (10 R184 check 4, 11 R205, R206): a wrong
number of bytes, or a presence or operation byte other than 0 and 1. -/
def MalformedArgs (r : Request) (args : List Byte) : Prop :=
  (∃ n, requestArgCount r = some n ∧ args.length ≠ n) ∨
  ((r = .departureSet ∨ r = .mirrorSet) ∧ 1 < (args.getD 1 0).toNat) ∨
  ∃ i, requestCountAt r = some i ∧
    (args.length ≠ i + 1 + 6 * (args.getD i 0).toNat ∨
      ∃ k < (args.getD i 0).toNat, 1 < (args.getD (i + 1 + 6 * k + 1) 0).toNat)

/-- A reply frame that is judged valid in the slot in progress, of a bay of the plan (01 R10; log 25). -/
structure ValidReply (s : State) (f : List Byte) (sl : Slot) (r : Bay) : Prop where
  slot : s.slot = some sl
  open_ : sl.judged = false
  long : 15 ≤ f.length
  check : byteSum (f.take 15) = 255
  echo : (f.getD 0 0).toNat = sl.bay
  bay : s.bay? sl.bay = some r

/-- A reply frame that is judged a miss in a slot: whole, with a bad check or another address (01 R10; log 25). -/
def BadReply (f : List Byte) (sl : Slot) : Prop :=
  15 ≤ f.length ∧ (byteSum (f.take 15) ≠ 255 ∨ (f.getD 0 0).toNat ≠ sl.bay)

/-- Whether the departure check finds a bay short at a current minute (05 R99). -/
def Bay.shortAt (r : Bay) (minute : Nat) : Bool :=
  match r.entry.departure, r.readings.sourceInUse, r.fuel.endurance with
  | some d, .engine, some e => decide (e < (if minute < d then d - minute else 0) + r.settings.departureMargin)
  | _, _, _ => false

/-- An event of a kind and bay stands in a port's queue, or the queue has overflowed (10 R186, R187). -/
def State.reported (s : State) (p : Port) (k : EventKind) (b : Nat) : Prop :=
  (∃ e ∈ (s.port p).queue, e.kind = k ∧ e.bay = b) ∨ (s.port p).overflow = true

/-- The value a list of settings gives a field, if it names it; absent is `some none`. -/
def valueNamed (f : PlanField) (l : List StageSetting) : Option (Option Nat) :=
  (l.find? fun x => x.field == some f).map StageSetting.value

/-! ## PLAN COMMIT's scan, check by check (08 R154 to R156) -/

/-- A check of the scan: the failure it answers, and whether the staged plan fails it. -/
abbrev ScanCheck := CommitFailure × Bool

/-- The checks of D, U and F against the threshold before each, the fields named from a code on. -/
def risingChecks (fail : Nat → CommitFailure) (code e d u f : Nat) : List ScanCheck :=
  [(fail code, decide (d ≤ e)), (fail (code + 1), decide (u ≤ d)), (fail (code + 2), decide (f ≤ u))]

/-- The range checks of the overridable fields that a profile gives, in the order of R146. -/
def givenChecks (fail : Nat → CommitFailure) (p : Profile) : List ScanCheck :=
  settingFields.map fun f => (fail f.code, (p.get f).any fun v => !decide (f.range.1 ≤ v ∧ v ≤ f.range.2))

/-- R155: the yard profile's checks. -/
def State.yardChecks (s : State) : List ScanCheck :=
  let y := s.staged.yard
  let fail := CommitFailure.mk .invalid 0 0
  settingFields.map (fun f => (fail f.code, !decide (f.range.1 ≤ y.settings.get f ∧ y.settings.get f ≤ f.range.2))) ++
  yardFields.map (fun f => (fail f.code, !f.inRange (y.only.get f))) ++
  risingChecks fail 12 y.settings.eligible y.settings.due y.settings.urgent y.settings.forced ++
  [(fail 21, decide (y.settings.lowLimit ≤ y.settings.criticalLimit)), (fail 36, decide (y.only.slots < y.only.fbSlots))] ++
  risingChecks fail 38 y.only.fbEligible y.only.fbDue y.only.fbUrgent y.only.fbForced ++
  [(⟨.slotsInUse, 0, 0, 28⟩, decide (y.only.slots < s.slotHolders))]

/-- R156: the checks of a bay address, with a staged record, or to be dropped, or in neither plan. -/
def State.bayChecks (s : State) (b : Nat) : List ScanCheck :=
  let fail := CommitFailure.mk .invalid 2 b
  match findKey b s.staged.bays, s.bay? b with
  | some e, _ =>
    let r := s.staged.resolve e
    [(fail 1, decide (7 < e.row)), (fail 2, decide (1 < e.genset)), (fail 3, decide (4294967295 < e.departure.getD 0))] ++
    givenChecks fail e.overrides ++ risingChecks fail 12 r.eligible r.due r.urgent r.forced ++
    [(fail 21, decide (r.lowLimit ≤ r.criticalLimit))]
  | none, some r =>
    [(⟨.bayInDefrost, 2, b, 0⟩, decide (r.defrost.state ∈ [DefrostState.granted, .running, .stopping, .unknown]))]
  | none, none => []

/-- R154: the whole scan: the yard, the rows 0 to 7, the addresses 1 to 127. -/
def State.scanChecks (s : State) : List ScanCheck :=
  s.yardChecks ++ ((List.range 8).flatMap fun n => givenChecks (CommitFailure.mk .invalid 1 n) (s.staged.row n)) ++
    (List.range 127).flatMap fun i => s.bayChecks (i + 1)

/-! ## What an operation leaves as it was -/

/-- Every bay record but the one at an address stands. -/
def OthersStand (b : Nat) (s t : State) : Prop := ∀ c, c ≠ b → t.bay? c = s.bay? c


/-- Everything that no operation of DS, FAU, FCU, DCU or LC's watch list writes: time, plan, loop position, SHED input,
silence, mirror rules. -/
structure Calm (s t : State) : Prop where
  now : t.now = s.now
  pending : t.pending = s.pending
  freeCount : t.freeCount = s.freeCount
  mode : t.mode = s.mode
  nextMain : t.nextMain = s.nextMain
  slot : t.slot = s.slot
  roundEnding : t.roundEnding = s.roundEnding
  yard : t.yard = s.yard
  rows : t.rows = s.rows
  staged : t.staged = s.staged
  commitPending : t.commitPending = s.commitPending
  marked : t.marked = s.marked
  generation : t.generation = s.generation
  fallback : t.fallback = s.fallback
  clock : t.clock = s.clock
  minuteEnd : t.minuteEnd = s.minuteEnd
  shedLine : t.shedLine = s.shedLine
  filtered : t.filtered = s.filtered
  filterEnd : t.filterEnd = s.filterEnd
  silence : t.silence = s.silence
  silenceTimer : t.silenceTimer = s.silenceTimer
  savedMode : t.savedMode = s.savedMode
  mirrors : t.mirrors = s.mirrors

/-- The ports after some postings: a queue takes an event that counts as one, again and again. -/
inductive Posts (x : PerPort PortState) : PerPort PortState → Prop where
  | refl : Posts x x
  | take {y : PerPort PortState} (p : Port) (e : Event) : Posts x y → e.count = 1 → Posts x (y.mod p fun ps => ps.take e)

/-- The ports after some postings within a command that may also have ended claims: everything but the claim counts is as the
postings leave it (10 R186 to R189, R200, 07 R138). -/
def State.Posted (t : State) (x : PerPort PortState) : Prop :=
  ∃ y, Posts x y ∧ ∀ p, t.port p = { y.get p with claimCount := (t.port p).claimCount }

/-- Every bay stays, its record related to the one before. -/
def BaysRel (R : Bay → Bay → Prop) (x y : List (Nat × Bay)) : Prop :=
  keysOf y = keysOf x ∧ ∀ b r, findKey b x = some r → ∃ r', findKey b y = some r' ∧ R r r'

/-- What DS and the command holder leave of a bay's record: all but the defrost record, the command in flight and the
baseline. -/
structure DefrostOnly (r r' : Bay) : Prop where
  entry : r'.entry = r.entry
  settings : r'.settings = r.settings
  readings : r'.readings = r.readings
  frost : r'.frost = r.frost
  fuel : r'.fuel = r.fuel
  door : r'.door = r.door
  presence : r'.loop.presence = r.loop.presence
  missCount : r'.loop.missCount = r.loop.missCount
  lostReported : r'.loop.lostReported = r.loop.lostReported

/-- What DS and FAU together leave of a bay's record: the plan's part, the readings, fuel and door, presence, and the
interval in progress. -/
structure FrostOnly (r r' : Bay) : Prop where
  entry : r'.entry = r.entry
  settings : r'.settings = r.settings
  readings : r'.readings = r.readings
  accrualEnd : r'.frost.accrualEnd = r.frost.accrualEnd
  doorSeconds : r'.frost.doorSeconds = r.frost.doorSeconds
  secondCounted : r'.frost.secondCounted = r.frost.secondCounted
  fuel : r'.fuel = r.fuel
  door : r'.door = r.door
  presence : r'.loop.presence = r.loop.presence
  missCount : r'.loop.missCount = r.loop.missCount
  lostReported : r'.loop.lostReported = r.loop.lostReported

/-- What every block leaves of a bay's record between commits: the plan's part. -/
structure PlanPart (r r' : Bay) : Prop where
  entry : r'.entry = r.entry
  settings : r'.settings = r.settings

/-- An operation of the blocks: the settled fields and the claim table stand, bays are related by `R`, ports take
postings, the watch list keeps its bound. -/
structure Works (R : Bay → Bay → Prop) (s t : State) : Prop where
  calm : Calm s t
  claims : t.claims = s.claims
  posts : Posts s.ports t.ports
  bays : BaysRel R s.bays t.bays
  watch : WatchBound s.watch → WatchBound t.watch

/-- DS's and the command holder's operations. -/
abbrev Defrosts := Works DefrostOnly
/-- DS's and FAU's operations. -/
abbrev Frosts := Works FrostOnly
/-- Every block's operations between commits. -/
abbrev Blocks := Works PlanPart

/-- Every bay record but the one at an address stands, but for what a grant or its fuel question changes. -/
def OthersGrantOnly (b : Nat) (s t : State) : Prop :=
  ∀ c r, c ≠ b → s.bay? c = some r → ∃ r', t.bay? c = some r' ∧ DefrostOnly r r'

/-- A watch cause of a bay has begun: it is appended to the watch list where it is not on it and there is room (01 R8). -/
structure WatchEntered (s t : State) (b : Nat) : Prop where
  list : t.watch = if b ∈ s.watch ∨ 4 ≤ s.watch.length then s.watch else s.watch ++ [b]
  cursor : t.cursor = s.cursor

/-- The last watch cause of a bay on the list has ended: it leaves, those behind it close up, a cursor on it moves to the bay
before it, or to none, and the lowest planned address with a cause that is not admitted is appended (01 R5, R9). -/
def WatchLeft (s t : State) (b : Nat) : Prop :=
  ∀ before after, s.watch = before ++ b :: after → b ∉ before ++ after → s.watch.length ≤ 4 →
    t.cursor = (if s.cursor = some b then before.getLast? else s.cursor) ∧
    (∀ c, t.hasCause c = true → c ∉ before ++ after →
      (∀ d, t.hasCause d = true → d ∉ before ++ after → c ≤ d) → t.watch = before ++ after ++ [c]) ∧
    ((∀ c, t.hasCause c = true → c ∈ before ++ after) → t.watch = before ++ after)

/-- The watch list after the grants of a selection run: the list before it, with GRANTED bays of the queue appended, and no bay
granted by the run off the list while it has room (01 R8, 04 R74). -/
structure WatchAfterGrants (s t : State) (list : List Nat) : Prop where
  list : ∃ granted, t.watch = list ++ granted ∧ ∀ c ∈ granted, c ∈ s.queuedBays ∧ t.inDefrost c .granted = true
  room : ∀ c, s.inDefrost c .granted = false → t.inDefrost c .granted = true → c ∈ t.watch ∨ 4 ≤ t.watch.length

/-- The watch list where a claim on a QUEUED bay ends: a door that is OPEN_ATTENDED becomes a cause in the claim's place, a door
that is one keeps the bay on the list, and else the bay leaves it and the lowest address that waits is admitted; the selection
run's grants come after (01 R5, R8, R9, 04 R69, 07 R137). -/
structure QueuedClaimEnded (s t : State) (b : Nat) (r : Bay) : Prop where
  attended : r.door.state = .openAttended → t.cursor = s.cursor ∧
    WatchAfterGrants s t (if b ∈ s.watch ∨ 4 ≤ s.watch.length then s.watch else s.watch ++ [b])
  door : r.door.state = .openTiming ∨ r.door.state = .ajar → t.cursor = s.cursor ∧ WatchAfterGrants s t s.watch
  offList : r.door.state = .shut ∨ r.door.state = .switchFault → b ∉ s.watch →
    t.cursor = s.cursor ∧ WatchAfterGrants s t s.watch
  leaves : r.door.state = .shut ∨ r.door.state = .switchFault → ∀ before after, s.watch = before ++ b :: after →
    b ∉ before ++ after → s.watch.length ≤ 4 →
    t.cursor = (if s.cursor = some b then before.getLast? else s.cursor) ∧
    (∀ c, c ≠ b → s.hasCause c = true → c ∉ before ++ after →
      (∀ d, d ≠ b → s.hasCause d = true → d ∉ before ++ after → c ≤ d) →
      WatchAfterGrants s t (before ++ after ++ [c])) ∧
    ((∀ c, c ≠ b → s.hasCause c = true → c ∈ before ++ after) → WatchAfterGrants s t (before ++ after))

/-- A claim ended on a bay: the record and its port's count gone, an OPEN_ATTENDED door on a fresh grace, a FUEL claim's
fill reported, other bays changed at most by a grant (07 R135 to R137). -/
structure ClaimEnded (s t : State) (b : Nat) (c : Claim) (r : Bay) : Prop where
  queued : Rising s.bays → r.defrost.state = .queued → QueuedClaimEnded s t b r
  watch : Rising s.bays → r.defrost.state ≠ .queued →
    (r.door.state = .openAttended → WatchEntered s t b) ∧
    (r.door.state = .openTiming ∨ r.door.state = .ajar ∨ r.defrost.state = .granted ∨ r.defrost.state = .stopping →
      r.door.state ≠ .openAttended → t.watch = s.watch ∧ t.cursor = s.cursor) ∧
    (r.door.state = .shut ∨ r.door.state = .switchFault → r.defrost.state ≠ .granted → r.defrost.state ≠ .stopping →
      WatchLeft s t b ∧ (b ∉ s.watch → t.watch = s.watch ∧ t.cursor = s.cursor))
  table : t.claims = dropKey b s.claims
  count : (t.port c.holder).claimCount = (s.port c.holder).claimCount - 1
  others : ∀ q, q ≠ c.holder → (t.port q).claimCount = (s.port q).claimCount
  bay : ∃ r', t.bay? b = some r' ∧ r'.frost = r.frost ∧ r'.readings = r.readings ∧ r'.fuel = r.fuel ∧
    r'.door = if r.door.state = .openAttended then
      { r.door with state := .openTiming, graceEnd := some (s.now + r.settings.doorGrace * 40) } else r.door
  grants : OthersGrantOnly b s t
  fill : c.holder = .fuel → t.reported .fuel .fillReported b

/-- A bay enters DRIP within a command, with `d` its defrost record as the outcome leaves it but for state and drip timer:
the drip timer runs for the DT resolved now, and a DT of 0 expires at once, into CLEAR or to the queue's tail, where the
selection run that follows may grant it (04 R85; log 15). -/
structure DripEntered (s t : State) (b : Nat) (r r' : Bay) (d : DefrostRec) : Prop where
  drip : r.settings.dripTime ≠ 0 →
    r'.defrost = { d with state := .drip, dripEnd := some (s.now + r.settings.dripTime * 60 * 40) } ∧ b ∉ t.queuedBays
  clear : r.settings.dripTime = 0 → r'.frost.urgency = .none ∨ b ∈ s.marked →
    r'.defrost = { d with state := .clear, dripEnd := none } ∧ b ∉ t.queuedBays
  joins : r.settings.dripTime = 0 → r'.frost.urgency ≠ .none → b ∉ s.marked →
    t.lastJoin = s.lastJoin + 1 ∧ r'.defrost.dripEnd = none ∧ r'.defrost.startFailures = d.startFailures ∧
      r'.defrost.refusal = d.refusal ∧
      (r'.defrost.state = .queued ∧ { bay := b, entryTime := s.now / 40, join := s.lastJoin + 1 } ∈ t.queue ∨
        r'.defrost.state = .granted ∧ r'.defrost.kept = some (s.now / 40, s.lastJoin + 1))

/-- A bay joined the queue within a command: with the present reading of the seconds and a join number above every one given
before, and it waits there, or was granted and keeps both (04 R65, R74). -/
def Joined (s t : State) (b : Nat) (r' : Bay) : Prop :=
  ∃ j, s.lastJoin < j ∧ j ≤ t.lastJoin ∧
    (r'.defrost.state = .queued ∧ { bay := b, entryTime := s.now / 40, join := j } ∈ t.queue ∨
      r'.defrost.state = .granted ∧ r'.defrost.kept = some (s.now / 40, j))

/-- A bay stands in the queue with an entry time and a join number, or was granted and keeps both (04 R66, R74). -/
def Waits (t : State) (b : Nat) (r' : Bay) (entryTime join : Nat) : Prop :=
  r'.defrost.state = .queued ∧ { bay := b, entryTime := entryTime, join := join } ∈ t.queue ∨
    r'.defrost.state = .granted ∧ r'.defrost.kept = some (entryTime, join)

/-- DS has taken the level that a command leaves a CLEAR or QUEUED bay at: a CLEAR bay whose level changed to ELIGIBLE or
higher joined the queue unless a pending commit holds it out, a QUEUED bay whose level changed to NONE is CLEAR, and any
other stays CLEAR or keeps its place (03 R55, 04 R65, R66). -/
structure LevelTaken (s t : State) (b : Nat) (r r' : Bay) : Prop where
  joins : r.defrost.state = .clear → b ∉ s.queuedBays → r'.frost.urgency ≠ r.frost.urgency → r'.frost.urgency ≠ .none →
    b ∉ t.marked → Joined s t b r'
  clear : r.defrost.state = .clear → b ∉ s.queuedBays →
    r'.frost.urgency = r.frost.urgency ∨ r'.frost.urgency = .none ∨ b ∈ t.marked →
    r'.defrost.state = .clear ∧ b ∉ t.queuedBays
  leaves : r.defrost.state = .queued → r'.frost.urgency ≠ r.frost.urgency → r'.frost.urgency = .none →
    r'.defrost.state = .clear ∧ b ∉ t.queuedBays
  waits : r.defrost.state = .queued → r'.frost.urgency = r.frost.urgency ∨ r'.frost.urgency ≠ .none →
    ∀ q, (s.queue.filter fun q => q.bay = b) = [q] → Waits t b r' q.entryTime q.join

/-- A grant withdrawn by a change of mode or a loop reset: back in the queue at the place of its kept join number, or CLEAR at
level NONE; where the same change moved its level, as DS takes that level, so at the tail where it rose from NONE after the
withdrawal (04 R66, R79; log 13). -/
structure GrantWithdrawn (s t : State) (b : Nat) (r r' : Bay) : Prop where
  record : r'.defrost.kind = none ∧ r'.defrost.slot = false ∧ r'.defrost.want = none ∧ r'.defrost.timer = .absent ∧
    r'.defrost.kept = none ∧ r'.defrost.confirmed = false ∧ r'.defrost.checkCount = 0
  clear : r'.frost.urgency = .none → r'.defrost.state = .clear ∧ b ∉ t.queuedBays
  back : r.frost.urgency ≠ .none → r'.frost.urgency ≠ .none → ∀ e j, r.defrost.kept = some (e, j) →
    r'.defrost.state = .queued ∧ { bay := b, entryTime := e, join := j } ∈ t.queue
  joins : r.frost.urgency = .none → r'.frost.urgency ≠ .none → b ∉ t.marked → Joined s t b r'

/-- A RUNNING or STOPPING record made UNKNOWN, with its kind, slot flag, timer and want; with its timer spent it is abandoned
at once, in DRIP, or out of it where the drip time is 0, and its want is gone as on every entry to DRIP (04 R85, R87, R88; logs
15, 16, 39). -/
structure MadeUnknown (s t : State) (b : Nat) (r r' : Bay) : Prop where
  unknown : r.defrost.timer ≠ .spent → r'.defrost.state = .unknown ∧ r'.defrost.kind = r.defrost.kind ∧
    r'.defrost.slot = r.defrost.slot ∧ r'.defrost.want = r.defrost.want ∧ r'.defrost.timer = r.defrost.timer
  abandoned : r.defrost.timer = .spent → t.reported .office .defrostAbandoned b ∧ r'.defrost.kind = none ∧
    r'.defrost.slot = false ∧ r'.defrost.want = none ∧ r'.defrost.timer = .absent ∧
    (r.settings.dripTime ≠ 0 →
      r'.defrost.state = .drip ∧ r'.defrost.dripEnd = some (s.now + r.settings.dripTime * 60 * 40)) ∧
    (r.settings.dripTime = 0 → (r'.frost.urgency = .none ∨ b ∈ t.marked → r'.defrost.state = .clear) ∧
      (r'.frost.urgency ≠ .none → b ∉ t.marked → Joined s t b r'))

/-- What DS and FAU make of a bay's record on a change of mode or a loop reset, with no commit applied: its level recomputed
where FALLBACK is entered or left, its grant withdrawn and its defrost made UNKNOWN where the change asks for it, the record
kept where it asks for nothing (03 R55, R64, 04 R87, R90). -/
structure ModeTakenBy (s t : State) (b : Nat) (r r' : Bay) (withdrawn unknown : Prop) : Prop where
  frost : r'.frost = { r.frost with
    urgency := if s.mode = .fallback ∨ t.mode = .fallback then (t.thresholds r').level r.frost.debt else r.frost.urgency }
  level : LevelTaken s t b r r'
  granted : r.defrost.state = .granted → withdrawn → GrantWithdrawn s t b r r'
  active : r.defrost.state = .running ∨ r.defrost.state = .stopping → unknown → MadeUnknown s t b r r'
  kept : (r.defrost.state = .drip ∨ r.defrost.state = .unknown ∨ r.defrost.state = .granted ∧ ¬withdrawn ∨
      (r.defrost.state = .running ∨ r.defrost.state = .stopping) ∧ ¬unknown) →
    r'.defrost = { r.defrost with refusal := r'.defrost.refusal, startFailures := r'.defrost.startFailures }

/-- What LC makes of a change of mode, with no commit applied: rounds go on among RUN, LISTEN and FALLBACK; entry to HALT
clears the round position and lets the slot in progress end the round; leaving HALT begins a round at once at the lowest
address, where the position stays while that slot is in progress, or leaves the slot in progress to its end (01 R2, R3, R6; logs 14,
26). -/
structure RoundTaken (s t : State) : Prop where
  goesOn : s.mode ≠ .halt → t.mode ≠ .halt → t.slot = s.slot ∧ t.nextMain = s.nextMain ∧ t.roundEnding = s.roundEnding
  halts : t.mode = .halt → t.nextMain = none ∧ t.slot = s.slot ∧ t.roundEnding = s.slot.isSome
  begins : s.mode = .halt → s.slot = none →
    t.slot.map (fun sl => (sl.bay, sl.watch)) = s.addresses.head?.map (fun b => (b, false)) ∧
      ∀ b, s.addresses.head? = some b → t.nextMain = some b
  ends : s.mode = .halt → s.slot.isSome = true → t.slot = s.slot ∧ t.nextMain = s.nextMain ∧ t.roundEnding = s.roundEnding

/-- A change of the loop mode taken by DS, FAU and LC, with no commit applied: the ports take its events and keep all else; a bay
that is not QUEUED stands in no entry of the queue. -/
structure ModeTaken (s t : State) : Prop where
  ports : Posts s.ports t.ports
  round : RoundTaken s t
  bays : ∀ b r, s.bay? b = some r → (r.defrost.state ≠ .queued → b ∉ s.queuedBays) → ∃ r', t.bay? b = some r' ∧
    ModeTakenBy s t b r r' (t.mode = .listen ∨ t.mode = .halt) (t.mode = .halt) ∧
    r'.defrost.refusal = r.defrost.refusal ∧ r'.defrost.startFailures = r.defrost.startFailures

/-- A defrost record as an outcome leaves it before DRIP: kind, slot, want, timer, kept entry and start check gone. -/
def DefrostRec.ended (d : DefrostRec) : DefrostRec :=
  { d with kind := none, slot := false, want := none, timer := .absent, kept := none, confirmed := false, checkCount := 0 }

/-- The same after a start failure, counted to 3 and refused there (04 R78). -/
def DefrostRec.startFailed (d : DefrostRec) : DefrostRec :=
  { d.ended with startFailures := min (d.startFailures + 1) 3, refusal := d.refusal || decide (2 ≤ d.startFailures) }

/-- The slot's poll was the third send of the start in flight (01 R21). -/
def Bay.ThirdSend (r : Bay) (carried : Option LoopCmd) : Prop :=
  ∃ f, r.loop.flight = some f ∧ (f.cmd = .startShore ∨ f.cmd = .startEngine) ∧ carried = some f.cmd ∧ 3 ≤ f.sends

/-- The miss makes a STOPPING bay LOST whose defrost timer is spent (04 R84). -/
def Bay.LostWhileStopping (r : Bay) : Prop :=
  r.loop.missCount + 1 = 3 ∧ r.loop.presence ≠ .lost ∧ r.defrost.state = .stopping ∧ r.defrost.timer = .spent

/-- A miss taken by LC, the Bay Table and DS: counted to at most 255, the third makes the bay LOST, stale and announced, and no
other reading and no frost, fuel or door field moves; the third send of a start is given up and is a start failure of a GRANTED
bay; a STOPPING bay LOST with its timer spent is abandoned (01 R11 to R13, R21, 02 R41, 04 R76, R78, R84). -/
structure MissTaken (s t : State) (b : Nat) (carried : Option LoopCmd) (r r' : Bay) : Prop where
  count : r'.loop.missCount = min (r.loop.missCount + 1) 255
  plan : PlanPart r r'
  frost : r'.frost = r.frost
  fuel : r'.fuel = r.fuel
  door : r'.door = r.door
  lost : r.loop.missCount + 1 = 3 → r.loop.presence ≠ .lost →
    r'.loop.presence = .lost ∧ r'.loop.lostReported = true ∧ r'.readings = { r.readings with stale := true } ∧
      t.reported .office .bayLost b
  other : r.loop.missCount + 1 ≠ 3 ∨ r.loop.presence = .lost →
    r'.loop.presence = r.loop.presence ∧ r'.loop.lostReported = r.loop.lostReported ∧ r'.readings = r.readings
  others : OthersGrantOnly b s t
  claims : t.claims = s.claims
  posts : Posts s.ports t.ports
  stands : ¬r.LostWhileStopping → ¬(r.ThirdSend carried ∧ r.defrost.state = .granted) →
    r'.defrost = r.defrost ∧ t.queue = s.queue
  abandoned : r.LostWhileStopping → b ∉ s.queuedBays →
    t.reported .office .defrostAbandoned b ∧ DripEntered s t b r r' r.defrost.ended
  failed : r.ThirdSend carried → r.defrost.state = .granted → b ∉ s.queuedBays →
    t.reported .office .defrostStartFailed b ∧ (2 ≤ r.defrost.startFailures → t.reported .office .defrostRefused b) ∧
      DripEntered s t b r r' r.defrost.startFailed

/-- A bay's fuel record as a recomputation leaves it: the endurance from the level and the rate as stored, with its flags; the
fuel state graded from the state held, but of a LOST bay held; the SHORT flag by the departure check at the clock (05 R92 to
R100). -/
structure FuelRecomputed (clock : Option Nat) (held : FuelState) (r : Bay) : Prop where
  estimated : r.fuel.estimated = decide (r.readings.burnRate = 0)
  noLevel : r.readings.fuelLevel = none → r.fuel.endurance = none ∧ r.fuel.saturated = false
  quotient : ∀ l q, r.readings.fuelLevel = some l →
    q = l * r.settings.capacity * 6 / (if r.readings.burnRate = 0 then r.settings.burnEstimate else r.readings.burnRate) →
    r.fuel.endurance = some (if 65535 < q then 65535 else q) ∧ r.fuel.saturated = decide (65535 < q)
  lost : r.loop.presence = .lost → r.fuel.state = held
  ungraded : r.loop.presence ≠ .lost → r.fuel.endurance = none → r.fuel.state = .unknown
  graded : r.loop.presence ≠ .lost → ∀ e, r.fuel.endurance = some e →
    (e < r.settings.criticalLimit → r.fuel.state = .critical) ∧
    (r.settings.criticalLimit ≤ e → e < r.settings.lowLimit → r.fuel.state = .low) ∧
    (r.settings.criticalLimit ≤ e → r.settings.lowLimit ≤ e → e < r.settings.lowLimit + r.settings.hysteresis →
      r.fuel.state = if held = .low ∨ held = .critical then .low else .ok) ∧
    (r.settings.criticalLimit ≤ e → r.settings.lowLimit + r.settings.hysteresis ≤ e → r.fuel.state = .ok)
  short : r.fuel.short = match clock with
    | some m => r.shortAt m
    | none => false

/-- The events of a recomputation: one for a changed fuel state, FUEL_SHORT where the flag is set from clear (05 R97, R100). -/
def FuelReported (t : State) (b : Nat) (r r' : Bay) : Prop :=
  (r'.fuel.state ≠ r.fuel.state → t.reported .fuel r'.fuel.state.event b) ∧
    (r'.fuel.short = true → r.fuel.short = false → t.reported .fuel .fuelShort b)

/-- FUEL_SHORT is posted for every bay whose SHORT flag a command sets from clear (05 R100). -/
def ShortReported (s t : State) : Prop :=
  ∀ b r r', s.bay? b = some r → t.bay? b = some r' → r'.fuel.short = true → r.fuel.short = false →
    t.reported .fuel .fuelShort b

/-- The pending plan is in force after an application within a command: the generation advanced, the committed plan
replaced, every bay resolved with its level recomputed; kept bays with their frost record, interval and readings and their fuel
recomputed; added bays with a fresh record, dropped bays gone with their claims and their defrosts, and PLAN_APPLIED reported; the
ports take the events and keep all else but their claim counts (03 R60, R61, 04 R89, 05 R92, R109, 07 R138, 08 R159 to R161; logs 27, 39). -/
structure PlanApplied (s t : State) : Prop where
  generation : t.generation = if 65535 ≤ s.generation then 1 else s.generation + 1
  yard : t.yard = s.staged.yard
  rows : t.rows = s.staged.rows
  staged : t.staged = s.staged
  pending : t.commitPending = false
  marked : t.marked = []
  addresses : keysOf t.bays = keysOf s.staged.bays
  fallback : t.fallback = s.staged.yard.only.fallbackProfile
  resolved : ∀ b e, findKey b s.staged.bays = some e → ∃ r', t.bay? b = some r' ∧ r'.entry = e ∧
    r'.settings = s.staged.resolve e ∧ r'.frost.urgency = (t.thresholds r').level r'.frost.debt ∧
    (∀ r, s.bay? b = some r → r'.frost = { r.frost with urgency := r'.frost.urgency } ∧
      r'.door = { r.door with beaconConfirmed := r'.door.beaconConfirmed } ∧
      r'.readings = { r.readings with
        stale := r'.readings.stale
        sourceInUse := if r.readings.reportedSource = .engine ∧ e.genset ≠ 1 then .none else r.readings.reportedSource } ∧
      FuelRecomputed t.clock r.fuel.state r' ∧ FuelReported t b r r') ∧
    (s.bay? b = none → r'.loop.presence = .pending ∧ r'.loop.baseline = none ∧ r'.loop.flight = none ∧ r'.frost.debt = 0 ∧
      r'.frost.intervalCount = 0 ∧ r'.frost.overdue = false ∧ r'.frost.doorSeconds = 0 ∧
      r'.frost.accrualEnd = s.now + r'.settings.ai * 60 * 40 ∧ r'.readings.door = .unknown ∧
      r'.readings.stale = true ∧ r'.fuel.endurance = none ∧ r'.fuel.state = .unknown ∧ r'.fuel.short = false ∧
      r'.door.state = .shut ∧ r'.door.beaconConfirmed = none ∧
      (r'.frost.urgency = .none → b ∉ s.queuedBays → r'.defrost.state = .clear ∧ r'.defrost.slot = false ∧
        r'.defrost.want = none ∧ r'.defrost.timer = .absent ∧ r'.defrost.startFailures = 0 ∧ r'.defrost.refusal = false))
  dropped : ∀ b, (s.bay? b).isSome = true → findKey b s.staged.bays = none → t.claimOf b = none ∧ b ∉ t.queuedBays
  claims : ∀ b, ((s.bay? b).isSome = true → (findKey b s.staged.bays).isSome = true) → t.claimOf b = s.claimOf b
  revoked : ∀ b c, (s.bay? b).isSome = true → findKey b s.staged.bays = none → s.claimOf b = some c →
    t.reported c.holder .claimRevoked b
  abandoned : ∀ b r, s.bay? b = some r → findKey b s.staged.bays = none →
    r.defrost.state ∈ [DefrostState.running, .stopping, .unknown] → t.reported .office .defrostAbandoned b
  report : t.reported .office .planApplied 0
  ports : t.Posted s.ports

/-- The kept bays' presence, stale mark and beacon state stand through an application (08 R160). -/
def KeptRecordsStand (s t : State) : Prop :=
  ∀ b r, s.bay? b = some r → (findKey b s.staged.bays).isSome = true → ∃ r', t.bay? b = some r' ∧
    r'.loop.presence = r.loop.presence ∧ r'.loop.missCount = r.loop.missCount ∧
    r'.loop.lostReported = r.loop.lostReported ∧ r'.readings.stale = r.readings.stale ∧ r'.door = r.door

/-- The kept bays' defrost records stand through an application in one mode, a CLEAR or QUEUED bay's but for its recomputed
level (03 R61, 04 R89); a bay that is not QUEUED stands in no entry of the queue. -/
def KeptDefrostsStand (s t : State) : Prop :=
  ∀ b r, s.bay? b = some r → (findKey b s.staged.bays).isSome = true → (r.defrost.state ≠ .queued → b ∉ s.queuedBays) →
    ∃ r', t.bay? b = some r' ∧ LevelTaken s t b r r' ∧
      (r.defrost.state ∉ [DefrostState.clear, .queued] → r'.defrost = r.defrost)

/-- The silence timer as an applied commit's limit leaves it: absent under a limit of 0 (but in OFF, where none runs), started
with a limit that was 0 before, else at the length it runs (09 R181; log 39). -/
def SilenceTimerCommitted (s t : State) : Prop :=
  t.silenceTimer =
    if t.yard.only.silenceLimit = 0 then if s.silence = .off then s.silenceTimer else none
    else if s.yard.only.silenceLimit = 0 ∧ s.silence ≠ .watching then
      some ⟨s.now + t.yard.only.silenceLimit * 40, t.yard.only.silenceLimit⟩
    else s.silenceTimer

/-- The silence settings of an applied commit have taken effect (09 R181). -/
structure SilenceCommitted (s t : State) : Prop where
  timer : SilenceTimerCommitted s t
  saved : t.savedMode = s.savedMode
  silence : t.silence =
    if s.silence = .silent then .silent
    else if t.yard.only.silenceLimit = 0 then .off
    else if s.yard.only.silenceLimit = 0 then .watching
    else s.silence

/-- An applied commit within a command that also ends SILENT (09 R179 to R181). -/
structure SilenceEnded (s t : State) : Prop where
  timer : SilenceTimerCommitted s t
  saved : t.savedMode = none
  silence : t.silence = if t.yard.only.silenceLimit = 0 then .off else .watching

/-- The bay whose slot a state has in progress, and whether it is a watch slot. -/
def State.slotFor (s : State) : Option (Nat × Bool) := s.slot.map fun sl => (sl.bay, sl.watch)

/-- Something has happened within a command after which R69 calls for a selection run: a bay joined the queue, a slot freed, a
queued bay's level changed, a withdrawn bay was restored, the mode changed to RUN or FALLBACK, the shed state left or came to
NORMAL, a commit was applied, a claim on a queued bay ended. -/
inductive SelectionDue (s t : State) : Prop where
  | joined : s.lastJoin < t.lastJoin → SelectionDue s t
  | freed : t.slotHolders < s.slotHolders → SelectionDue s t
  | level (b : Nat) (r r' : Bay) : s.bay? b = some r → r.defrost.state = .queued → t.bay? b = some r' →
      r'.frost.urgency ≠ r.frost.urgency → SelectionDue s t
  | restored (b : Nat) : s.inDefrost b .granted = true → t.inDefrost b .queued = true → SelectionDue s t
  | mode : t.mode ≠ s.mode → t.mode = .run ∨ t.mode = .fallback → SelectionDue s t
  | shed : t.shed ≠ s.shed → s.shed = .normal ∨ t.shed = .normal → SelectionDue s t
  | commit : t.generation ≠ s.generation → SelectionDue s t
  | claim (b : Nat) : s.inDefrost b .queued = true → s.claimed b = true → t.claimed b = false → SelectionDue s t

end Sys2Proof.Machine
end

