-- ==== Sys2Proof/Certificates/Slice0/Obligations.lean ====
section
/-!
DEFINITION. The statements about the YS128, one `Obligations.<Name>` each; OBLIGATIONS.json gives their tier, their text and
the rules they rest on. A statement that rests on a choice of the model names the log entry.
-/
open Sys2Proof Sys2Proof.Machine

/-! ## The step, the timebase and the resets -/

/-- A step with a command at the front of the queue is that command's meaning on the state with the queue's rest. -/
def Obligations.StepRunsTheFrontCommand : Prop :=
  ∀ (c : Instr) (s : State), step { s with pending := c :: s.pending } = exec c s

/-- The model's own clock (logs 1, 2, 3, 24): with no command waiting, a step is 25 ms of the timebase, and puts in the queue
the events that have then come due, each once, and no other command; an expiry whose timer is not running, or has not run
out, changes nothing, nor does a DOOR_OPEN_SECOND of a bay outside the plan, or of one whose door reads otherwise and that no
expiry has marked (of a marked one, O47). -/
def Obligations.TimersComeDueOnTheTimebase : Prop :=
  (∀ s : State, s.pending = [] → Rising s.bays → Rising s.claims →
     ∃ t : State, step s = .next t ∧ t = { s with now := s.now + 1, pending := t.pending, bays := t.bays } ∧
       (∀ b, t.bay? b = (s.bay? b).map fun r =>
         if (s.now + 1) % 40 = 0 ∧ r.readings.door ≠ .opened then { r with frost := { r.frost with secondCounted := false } }
         else r) ∧
       (Instr.pollSlotEnd ∈ t.pending ↔ s.slot.isSome = true) ∧
       (Instr.shedFilterExpiry ∈ t.pending ↔ ∃ e, s.filterEnd = some e ∧ e ≤ s.now + 1) ∧
       (Instr.dwellTimerExpiry ∈ t.pending ↔ ∃ e, s.dwell = .running e ∧ e ≤ s.now + 1) ∧
       (Instr.restartGapExpiry ∈ t.pending ↔ ∃ e, s.gapEnd = some e ∧ e ≤ s.now + 1) ∧
       (Instr.silenceTimerExpiry ∈ t.pending ↔ ∃ x, s.silenceTimer = some x ∧ x.deadline ≤ s.now + 1) ∧
       (Instr.yardClockAdvance ∈ t.pending ↔ ∃ e, s.minuteEnd = some e ∧ e ≤ s.now + 1) ∧
       (∀ b, Instr.leaseExpiry b ∈ t.pending ↔ ∃ c, s.claimOf b = some c ∧ c.leaseEnd ≤ (s.now + 1) / 40) ∧
       (∀ b, Instr.graceTimerExpiry b ∈ t.pending ↔ ∃ r e, s.bay? b = some r ∧ r.door.graceEnd = some e ∧ e ≤ s.now + 1) ∧
       (∀ b, Instr.defrostTimerExpiry b ∈ t.pending ↔
         ∃ r e, s.bay? b = some r ∧ r.defrost.timer = .running e ∧ e ≤ s.now + 1) ∧
       (∀ b, Instr.dripTimerExpiry b ∈ t.pending ↔
         ∃ r e, s.bay? b = some r ∧ r.defrost.dripEnd = some e ∧ e ≤ s.now + 1) ∧
       (∀ b, Instr.accrualExpiry b ∈ t.pending ↔ ∃ r, s.bay? b = some r ∧ r.frost.accrualEnd ≤ s.now + 1) ∧
       (∀ b, Instr.doorOpenSecond b ∈ t.pending ↔
         (s.now + 1) % 40 = 0 ∧ ∃ r, s.bay? b = some r ∧ r.readings.door = .opened) ∧
       t.pending.Nodup ∧
       ∀ c ∈ t.pending, c ∈ [Instr.pollSlotEnd, .shedFilterExpiry, .dwellTimerExpiry, .restartGapExpiry, .silenceTimerExpiry,
           .yardClockAdvance] ∨
         ∃ b, c ∈ [Instr.leaseExpiry b, .graceTimerExpiry b, .defrostTimerExpiry b, .dripTimerExpiry b, .accrualExpiry b,
           .doorOpenSecond b]) ∧
  (∀ (s : State) (b : Nat),
     ((∀ r, s.bay? b = some r → s.now < r.frost.accrualEnd) → exec (.accrualExpiry b) s = .next s) ∧
     ((∀ r e, s.bay? b = some r → r.defrost.timer = .running e → s.now < e) → exec (.defrostTimerExpiry b) s = .next s) ∧
     ((∀ r e, s.bay? b = some r → r.defrost.dripEnd = some e → s.now < e) → exec (.dripTimerExpiry b) s = .next s) ∧
     ((∀ r e, s.bay? b = some r → r.door.graceEnd = some e → s.now < e) → exec (.graceTimerExpiry b) s = .next s) ∧
     ((∀ c, s.claimOf b = some c → s.now / 40 < c.leaseEnd) → exec (.leaseExpiry b) s = .next s) ∧
     ((∀ e, s.minuteEnd = some e → s.now < e) → exec .yardClockAdvance s = .next s) ∧
     ((∀ e, s.filterEnd = some e → s.now < e) → exec .shedFilterExpiry s = .next s) ∧
     ((∀ e, s.dwell = .running e → s.now < e) → exec .dwellTimerExpiry s = .next s) ∧
     ((∀ e, s.gapEnd = some e → s.now < e) → exec .restartGapExpiry s = .next s) ∧
     ((∀ x, s.silenceTimer = some x → s.now < x.deadline) → exec .silenceTimerExpiry s = .next s) ∧
     (s.bay? b = none → exec (.doorOpenSecond b) s = .next s) ∧
     (∀ r, Rising s.bays → s.bay? b = some r → r.readings.door ≠ .opened → r.frost.secondCounted = false →
       exec (.doorOpenSecond b) s = .next s))

/-- The state after a full reset meets every invariant stated below. -/
def Obligations.ResetMeetsTheInvariants : Prop :=
  State.reset.FormOk ∧ State.reset.AddressesOk ∧ State.reset.PortsOk ∧ State.reset.ClaimsOk ∧ State.reset.WatchOk ∧
    State.reset.QueueOk ∧ State.reset.BudgetOk ∧ State.reset.ShedOk ∧ State.reset.SettingsOk ∧ State.reset.HaltOk ∧
    State.reset.CountersOk

/-- What a full reset leaves: no bays, claims, events or rules, HALT, generation 0, silence OFF, every port idle with one class
masked and any transaction in progress on it abandoned (log 36), the yard values of R146. The SHED line is sampled once: NORMAL
where it is released, SHED with SHED_ENTERED and a dwell of 60 s (as log 39 counts them) where it is asserted. -/
def Obligations.FullResetEmptiesThePartAndSamplesShed : Prop :=
  (∀ s : State, ∃ t : State, exec .fullReset s = .next t ∧
     t.mode = .halt ∧ t.nextMain = none ∧ t.slot = none ∧ t.watch = [] ∧ t.cursor = none ∧ t.bays = [] ∧ t.staged.bays = [] ∧
     t.yard = t.staged.yard ∧ t.rows = t.staged.rows ∧ t.rows.length = 8 ∧ (∀ row ∈ t.rows, ∀ f, row.get f = none) ∧
     settingFields.map t.yard.settings.get =
       [10, 2, 30, 8, 60, 20, 6, 24, 40, 64, 96, 0, 30, 5, 200, 30, 480, 120, 60, 240, 90, 180, 1, 45] ∧
     yardFields.map t.yard.only.get = [2, 1, 8, 0, 0, 0, 60, 10, 1, 32, 56, 80, 112, 0] ∧
     t.fallback = { slots := 1, eligible := 32, due := 56, urgent := 80, forced := 112, raisePeriod := 0 } ∧
     t.commitPending = false ∧ t.marked = [] ∧ t.generation = 0 ∧ t.clock = none ∧ t.minuteEnd = none ∧
     t.queue = [] ∧ t.slotHolders = 0 ∧ t.raiseCounter = 0 ∧
     t.silence = .off ∧ t.silenceTimer = none ∧ t.savedMode = none ∧ t.claims = [] ∧ t.mirrors = [none, none, none, none] ∧
     ∀ p, (t.port p).overflow = false ∧ (t.port p).classCount = .one ∧ (t.port p).mask = 0 ∧ (t.port p).attn = false ∧
       (t.port p).inTransaction = false ∧ (t.port p).shiftOut = [] ∧
       (t.port p).abandoned = ((s.port p).inTransaction || (s.port p).abandoned) ∧ (t.port p).holder = none ∧
       (t.port p).number = 0 ∧ (t.port p).claimCount = 0 ∧
       ((t.port p).queue = [] ∨ s.shedLine = true ∧ p = .office)) ∧
  (∀ s : State, ∃ t : State, exec .fullReset s = .next t ∧ t.filtered = s.shedLine ∧ t.shedLine = s.shedLine ∧ t.filterEnd = none ∧
     t.gapEnd = none ∧ t.releaseSeen = false ∧
     (s.shedLine = false → t.shed = .normal ∧ t.dwell = .absent ∧ (t.port .office).queue = []) ∧
     (s.shedLine = true → t.shed = .shed ∧ t.dwell = .running (s.now + 60 * 40) ∧
       (t.port .office).queue =
         [{ kind := .shedEntered, bay := 0, time := none, count := 1, detail := [.word 60, .byte 0], mirrored := false }]))

/-- A loop reset with no commit pending: LISTEN, every bay PENDING with its baseline unknown and nothing in flight, the plan, the
claims and the readings kept, the watch list rebuilt by rising address, a round begun with a poll that carries NONE. GRANTED
bays are withdrawn to the place of their kept join number, or to CLEAR at level NONE; RUNNING and STOPPING become UNKNOWN with
their kind, slot, timer and want, or are abandoned where the timer is spent (a drip time of 0 by log 15, the want gone by log
16, timer ends by log 39); DRIP and UNKNOWN records are kept; levels are recomputed and taken where FALLBACK is left, after the
withdrawals, so that a GRANTED bay at NONE whose level rises joins the queue at the tail (the order of log 13, the model's
choice). The SILENT state ends with its saved mode, the silence timer stands as the request restarted it. The shed state stands,
but where the last slot frees in DRAINING: SHED with SHED_ENTERED, a fresh dwell and no release seen. The ports take the events
posted and keep all else; a bay that stays QUEUED keeps its waiting-reported mark, and its fuel-block mark but where a selection
run finds that fuel does not hold it, at the level it had before the reset or at the one after (the first only where the mark
stood on a bay that fuel did not hold). The round position stays at the bay of the slot begun (log 26). -/
def Obligations.LoopResetStartsTheLoopAfresh : Prop :=
  ∀ s : State, s.Takes .office → s.commitPending = false →
    ∃ t : State, exec (.loopReset .office []) s = .next (t.answer .office (some 14) ⟨.done, 2 :: be2 s.generation⟩) ∧
      t.mode = .listen ∧ t.nextMain = s.addresses.head? ∧ t.cursor = none ∧ t.roundEnding = false ∧
      t.slotFor = s.addresses.head?.map (fun b => (b, false)) ∧ (∀ sl, t.slot = some sl → sl.carried = none ∧ sl.num = 0) ∧
      t.watch = (s.addresses.filter t.hasCause).take 4 ∧
      t.yard = s.yard ∧ t.rows = s.rows ∧ t.staged = s.staged ∧ t.commitPending = false ∧ t.generation = s.generation ∧
      t.fallback = s.fallback ∧ t.clock = s.clock ∧ t.minuteEnd = s.minuteEnd ∧ t.now = s.now ∧ t.claims = s.claims ∧
      t.mirrors = s.mirrors ∧ t.filtered = s.filtered ∧ t.filterEnd = s.filterEnd ∧ t.raiseCounter = s.raiseCounter ∧
      t.savedMode = (if s.silence = .silent then none else s.savedMode) ∧
      t.silence = (if s.silence = .silent then if s.yard.only.silenceLimit = 0 then .off else .watching else s.silence) ∧
      t.silenceTimer = (s.frameTaken .office).silenceTimer ∧ Posts s.ports t.ports ∧
      t.shedLine = s.shedLine ∧ t.gapEnd = s.gapEnd ∧ t.slotHolders ≤ s.slotHolders ∧
      (s.shed ≠ .draining ∨ t.slotHolders ≠ 0 → t.shed = s.shed ∧ t.dwell = s.dwell ∧ t.releaseSeen = s.releaseSeen) ∧
      (s.shed = .draining → s.slotHolders ≠ 0 → t.slotHolders = 0 →
        t.shed = .shed ∧ t.releaseSeen = false ∧ t.reported .office .shedEntered 0 ∧
        t.dwell = if s.yard.only.shedDwell = 0 then .spent else .running (s.now + s.yard.only.shedDwell * 40)) ∧
      BaysRel (fun r r' =>
        r'.entry = r.entry ∧ r'.settings = r.settings ∧ r'.loop =
          { presence := .pending, missCount := 0, lostReported := r.loop.lostReported, baseline := none, flight := none } ∧
        r'.readings = { r.readings with stale := true } ∧ r'.door = { r.door with beaconConfirmed := none } ∧
        r'.fuel = r.fuel ∧ r'.frost = { r.frost with urgency := r'.frost.urgency } ∧
        r'.defrost.refusal = false ∧ r'.defrost.startFailures = 0 ∧ r'.defrost.state ≠ .granted ∧
        r'.defrost.state ≠ .running ∧ r'.defrost.state ≠ .stopping) s.bays t.bays ∧
      ∀ b r, s.bay? b = some r → (r.defrost.state ≠ .queued → b ∉ s.queuedBays) →
        ∃ r', t.bay? b = some r' ∧ ModeTakenBy s t b r r' True True ∧
          (r.defrost.state = .queued → r'.defrost.state = .queued →
            r'.defrost.waitingReported = r.defrost.waitingReported ∧
            (r'.defrost.fuelBlock = r.defrost.fuelBlock ∨
              r'.defrost.fuelBlock = false ∧ (¬r'.FuelHolds ∨ ¬r.FuelHolds)))

/-! ## Transactions and answers -/

/-- TRANSACTION BEGIN: an idle port, which sends no byte, begins to shift out its answer holder as a frame that passes its own
check, and after it filler of 0 for as long as the transaction lasts; on a port in a transaction it changes nothing (log 4). A
transaction of no whole byte leaves holder and number; a bad frame is answered BAD_FRAME and does not restart the silence timer; a
frame of an unknown code is answered UNKNOWN_REQUEST with the code, and on the Office port restarts the silence timer with the
limit in force (its end by log 39). The frame of a transaction that a full reset abandoned is not taken (log 36). -/
def Obligations.TransactionsWithoutARequest : Prop :=
  (∀ (s : State) (p : Port),
     ((s.port p).inTransaction = true → exec (.transactionBegin p) s = .next s) ∧
     ((s.port p).inTransaction = false → (∀ k, (s.port p).byteOut k = none) ∧
       ∃ (t : State) (body : List Byte), exec (.transactionBegin p) s = .next t ∧
         t = s.modPort p (fun ps =>
           { ps with inTransaction := true, abandoned := false, shiftOut := body ++ [255 - byteSum body] }) ∧
         (body = match (s.port p).holder with
           | none => [5, (s.port p).number, 0, 0]
           | some a => [byteOf (a.results.length + 5), a.number, a.request.getD 0, byteOf a.code.code] ++ a.results) ∧
         byteSum (body ++ [255 - byteSum body]) = 255 ∧
         ∀ k, (t.port p).byteOut k =
           some (if k < body.length then body.getD k 0 else if k = body.length then 255 - byteSum body else 0))) ∧
  (∀ (s : State) (p : Port) (code : Byte) (ended : State),
     ended = s.modPort p (fun ps => { ps with inTransaction := false, abandoned := false, shiftOut := [] }) →
     exec (.noByteTransaction p) s = .next ended ∧
     (¬ s.Takes p → exec (.badFrame p) s = .next ended ∧ exec (.unknownRequest p code) s = .next ended) ∧
     (s.Takes p →
       exec (.badFrame p) s = .next (s.modPort p fun ps =>
         { ps with inTransaction := false, shiftOut := [], number := ps.number + 1,
                   holder := some { request := none, code := .badFrame, number := ps.number + 1, results := [] } }) ∧
       exec (.unknownRequest p code) s =
         .next ((if p = .office ∧ s.yard.only.silenceLimit ≠ 0 then
             { s with silenceTimer := some ⟨s.now + s.yard.only.silenceLimit * 40, s.yard.only.silenceLimit⟩ }
           else s).modPort p fun ps =>
           { ps with inTransaction := false, shiftOut := [], number := ps.number + 1,
                     holder := some { request := some code, code := .unknownRequest, number := ps.number + 1,
                                      results := [code] } })))

/-- Every request, on any port and with any arguments, completes with an answer in its own port's holder under the next
number, and leaves the holders and numbers of the other ports. The request of a transaction that a full reset abandoned is not
taken, and changes nothing but that the transaction is over (log 36). -/
def Obligations.EveryRequestIsAnsweredOnItsPort : Prop :=
  ∀ (s : State) (r : Request) (p : Port) (args : List Byte),
    (s.Takes p → ∃ (t : State) (code : AnswerCode) (results : List Byte), exec (r.toInstr p args) s = .next t ∧
      (t.port p).holder = some { request := some r.code, code := code, number := (s.port p).number + 1, results := results } ∧
      (t.port p).number = (s.port p).number + 1 ∧ (t.port p).inTransaction = false ∧ (t.port p).shiftOut = [] ∧
      ∀ q, q ≠ p → (t.port q).holder = (s.port q).holder ∧ (t.port q).number = (s.port q).number ∧
        (t.port q).inTransaction = (s.port q).inTransaction ∧ (t.port q).shiftOut = (s.port q).shiftOut) ∧
    (¬ s.Takes p → exec (r.toInstr p args) s =
      .next (s.modPort p fun ps => { ps with inTransaction := false, abandoned := false, shiftOut := [] }))

/-- A request on a port that may not send it is answered NOT_PERMITTED whatever its arguments; argument bytes without the
request's count and form are answered INVALID on a port that may send it. Nothing else changes but the silence timer of an
Office frame. -/
def Obligations.RequestsAreCheckedForPortThenForm : Prop :=
  (∀ (s : State) (r : Request) (p : Port) (args : List Byte), s.Takes p →
     (p = .fuel ∧ r ∉ [Request.attnSet, .bayRead, .claim, .claimRelease, .claimRenew, .eventFetch, .fuelList, .status] ∨
       p = .patrol ∧ r ∉ [Request.attnSet, .bayRead, .beaconSet, .claim, .claimRelease, .claimRenew, .doorList, .eventFetch,
         .status]) →
     exec (r.toInstr p args) s = .next (s.answer p (some r.code) ⟨.notPermitted, []⟩)) ∧
  (∀ (s : State) (r : Request) (p : Port) (args : List Byte), s.Takes p →
     (p = .office ∨
       p = .fuel ∧ r ∈ [Request.attnSet, .bayRead, .claim, .claimRelease, .claimRenew, .eventFetch, .fuelList, .status] ∨
       p = .patrol ∧ r ∈ [Request.attnSet, .bayRead, .beaconSet, .claim, .claimRelease, .claimRenew, .doorList, .eventFetch,
         .status]) →
     MalformedArgs r args →
     exec (r.toInstr p args) s = .next ((s.frameTaken p).answer p (some r.code) ⟨.invalid, []⟩))

/-- Decoding a transaction agrees with building a request frame: any request with arguments that fit a frame, whatever
bytes are clocked in after it, is read back as that request with those arguments. -/
def Obligations.DecodeOfEncodedRequest : Prop :=
  ∀ (r : Request) (p : Port) (args extra : List Byte), args.length ≤ 125 →
    decodeTransaction p (encodeRequest r args ++ extra) = r.toInstr p args

/-! ## Events and ports -/

/-- A queue takes a posting: it coalesces in its place with the count raised to at most 255, is appended below 32 entries, or is
discarded with the overflow mark set. An event posted is stamped with the yard clock, taken by its home queue, and by the queue of
each other port that a matching mirror rule names, once, as a copy with the MIRRORED flag; nothing else changes. -/
def Obligations.PostingsAreTakenAndMirrored : Prop :=
  (∀ (ps : PortState) (e : Event),
     ((∃ old ∈ ps.queue, old.kind = e.kind ∧ old.bay = e.bay) →
       ps.take e = { ps with queue := ps.queue.map fun old =>
         if old.kind = e.kind ∧ old.bay = e.bay then { e with count := min (old.count + 1) 255 } else old }) ∧
     ((∀ old ∈ ps.queue, ¬(old.kind = e.kind ∧ old.bay = e.bay)) → ps.queue.length < 32 →
       ps.take e = { ps with queue := ps.queue ++ [e], attn := (ps.queue ++ [e]).any ps.unmasked }) ∧
     ((∀ old ∈ ps.queue, ¬(old.kind = e.kind ∧ old.bay = e.bay)) → 32 ≤ ps.queue.length →
       ps.take e = { ps with overflow := true })) ∧
  (∀ (rules : List (Option MirrorRule)) (home : Port) (e : Event),
     (mirrorDests rules home e).Nodup ∧
     ∀ p, p ∈ mirrorDests rules home e ↔
       ∃ m, some m ∈ rules ∧ m.dest = p ∧ m.source = home ∧ m.first ≤ e.bay ∧ e.bay ≤ m.last ∧
         m.classes.getLsbD e.kind.cls.bit = true) ∧
  (∀ (s : State) (home : Port) (kind : EventKind) (bay : Nat) (detail : List Item) (e : Event) (copied : Port → Prop),
     e = { kind := kind, bay := bay, time := s.clock, count := 1, detail := detail, mirrored := false } →
     (∀ p, copied p ↔ ∃ m, some m ∈ s.mirrors ∧ m.dest = p ∧ m.source = home ∧ m.first ≤ bay ∧ bay ≤ m.last ∧
       m.classes.getLsbD kind.cls.bit = true) →
     ∃ t : State, s.postAt home kind bay detail = t ∧ t = { s with ports := t.ports } ∧
       (∀ p, p ≠ home → copied p → t.port p = (s.port p).take { e with mirrored := true }) ∧
       (∀ p, p ≠ home → ¬copied p → t.port p = s.port p) ∧
       (¬copied home → t.port home = (s.port home).take e))

/-- EVENT FETCH returns and removes the oldest entry, with the overflow mark before it and the number left; the mark clears when the
queue empties and ATTN is set afresh; an empty queue is answered EMPTY. Detail bytes that no rule gives are free values, and the
counter that they are read with moves on (log 8). ATTN SET replaces the sending port's class count and mask and sets the line
from the queue as it stands; a count other than 1, 2 or 4, or a set with a bit beyond the classes of the count (log 23), is
INVALID and changes nothing. MIRROR SET empties or replaces one of the four rules, or is INVALID and changes nothing. -/
def Obligations.EventFetchAttnSetAndMirrorSetActOnTheRouter : Prop :=
  (∀ (s : State) (p : Port), s.Takes p →
    ((s.port p).queue = [] → exec (.eventFetch p []) s =
      .next ((s.frameTaken p).answer p (some 12) ⟨.empty, [byteOf (if (s.port p).overflow then 1 else 0)]⟩)) ∧
    ∀ e rest, (s.port p).queue = e :: rest →
      ∃ (t : State) (free : Nat → Byte),
        exec (.eventFetch p []) s = .next (t.answer p (some 12)
          ⟨.done, [byteOf e.kind.code, byteOf e.bay] ++ be4 (e.time.getD 0) ++ [byteOf e.count,
              byteOf ((if e.mirrored then 1 else 0) + (if e.kind.alarm then 2 else 0) + (if e.time.isNone then 4 else 0))] ++
            detailBytes free e.detail ++ [byteOf (if (s.port p).overflow then 1 else 0), byteOf rest.length]⟩) ∧
        t = { (s.frameTaken p).modPort p (fun ps =>
            { ps with queue := rest, overflow := ps.overflow && !rest.isEmpty, attn := rest.any ps.unmasked }) with
          freeCount := s.freeCount + 1 }) ∧
  (∀ (s : State) (p : Port) (n m : Byte), s.Takes p →
     (∀ c : ClassCount, (c = .one ∧ n = 1 ∧ m.toNat < 2 ∨ c = .two ∧ n = 2 ∧ m.toNat < 4 ∨ c = .four ∧ n = 4 ∧ m.toNat < 16) →
       exec (.attnSet p [n, m]) s =
         .next (((s.frameTaken p).modPort p fun ps =>
             { ps with classCount := c, mask := m.setWidth 4,
                       attn := ps.queue.any fun e => m.getLsbD (classBit c e.kind) }).answer p (some 1)
           ⟨.done, [byteOf (if (s.port p).queue.any (fun e => m.getLsbD (classBit c e.kind)) then 1 else 0)]⟩)) ∧
     (¬(n = 1 ∧ m.toNat < 2 ∨ n = 2 ∧ m.toNat < 4 ∨ n = 4 ∧ m.toNat < 16) →
       exec (.attnSet p [n, m]) s = .next ((s.frameTaken p).answer p (some 1) ⟨.invalid, []⟩))) ∧
  (∀ (s : State) (rule op source first last classes dest : Byte), s.Takes .office → op.toNat ≤ 1 →
     (op = 0 → rule.toNat ≤ 3 → exec (.mirrorSet .office [rule, op, source, first, last, classes, dest]) s =
       .next ({ s.frameTaken .office with mirrors := s.mirrors.set rule.toNat none }.answer .office (some 15) ⟨.done, []⟩)) ∧
     (op = 1 → rule.toNat ≤ 3 → ∀ a b : Port, source = byteOf (portCode a) → dest = byteOf (portCode b) → a ≠ b →
       first.toNat ≤ last.toNat → last.toNat ≤ 127 → 0 < classes.toNat → classes.toNat ≤ 15 →
       exec (.mirrorSet .office [rule, op, source, first, last, classes, dest]) s =
         .next ({ s.frameTaken .office with
             mirrors := s.mirrors.set rule.toNat (some
               { source := a, first := first.toNat, last := last.toNat, classes := classes.setWidth 4, dest := b }) }.answer
           .office (some 15) ⟨.done, []⟩)) ∧
     ((3 < rule.toNat ∨ op = 1 ∧ (2 < source.toNat ∨ 2 < dest.toNat ∨ last.toNat < first.toNat ∨ 127 < last.toNat ∨
         classes = 0 ∨ 15 < classes.toNat ∨ dest = source)) →
       exec (.mirrorSet .office [rule, op, source, first, last, classes, dest]) s =
         .next ((s.frameTaken .office).answer .office (some 15) ⟨.invalid, []⟩)))

/-- STATUS answers DONE with the part-wide state in 17 bytes, and changes nothing of it. -/
def Obligations.StatusReturnsThePartWideState : Prop :=
  ∀ (s : State) (p : Port), s.Takes p →
    exec (.status p []) s = .next ((s.frameTaken p).answer p (some 25) ⟨.done,
      [byteOf s.mode.code, byteOf s.shed.code, byteOf s.silence.code] ++ be2 s.generation ++
      [if s.commitPending then 1 else 0, byteOf s.slotHolders, byteOf s.queue.length, byteOf s.claims.length,
       if s.clock.isSome then 1 else 0] ++ be4 (s.clock.getD 0) ++
      [byteOf (s.port p).queue.length, if (s.port p).overflow then 1 else 0, if (s.port p).attn then 1 else 0]⟩)

/-- Every step keeps every port: at most 32 entries, no two of one kind and bay, counts 1 to 255, an overflow mark only
over a queue that is not empty, ATTN at the level that the queue and the mask give, and a port whose
transaction a full reset abandoned idle with nothing answered. -/
def Obligations.EveryStepKeepsThePorts : Prop :=
 ∀ s t : State, s.PortsOk → step s = .next t → t.PortsOk

/-! ## The plan -/

/-- STAGE YARD: COMMIT_PENDING, or INVALID, or each named field of the staged yard profile set to its value and every other
field as it was. -/
def Obligations.StageYardSetsTheNamedFields : Prop :=
  ∀ (s : State) (args : List Byte) (l : List StageSetting), s.Takes .office → countedSettings args = some l →
    (s.commitPending = true →
      exec (.stageYard .office args) s = .next ((s.frameTaken .office).answer .office (some 24) ⟨.commitPending, []⟩)) ∧
    (s.commitPending = false →
      (l = [] ∨ 16 < l.length ∨ (∃ x ∈ l, x.value = none ∨ x.field ∈ [none, some .row, some .genset, some .departure]) ∨
        ¬(l.map StageSetting.field).Nodup) →
      exec (.stageYard .office args) s = .next ((s.frameTaken .office).answer .office (some 24) ⟨.invalid, []⟩)) ∧
    (s.commitPending = false → l ≠ [] → l.length ≤ 16 → (l.map StageSetting.field).Nodup →
      (∀ x ∈ l, x.value ≠ none ∧ x.field ∉ [none, some .row, some .genset, some .departure]) →
      ∃ y : Yard, exec (.stageYard .office args) s =
          .next ({ s.frameTaken .office with staged := { s.staged with yard := y } }.answer .office (some 24) ⟨.done, []⟩) ∧
        (∀ f, y.settings.get f = ((valueNamed (.setting f) l).getD none).getD (s.staged.yard.settings.get f)) ∧
        ∀ f, y.only.get f = ((valueNamed (.yardOnly f) l).getD none).getD (s.staged.yard.only.get f))

/-- STAGE ROW: COMMIT_PENDING, or INVALID, or each named field of the staged row profile given its value or made absent and
every other field as it was. -/
def Obligations.StageRowSetsTheNamedFields : Prop :=
  ∀ (s : State) (args : List Byte) (row : Nat) (l : List StageSetting), s.Takes .office → namedSettings args = some (row, l) →
    s.staged.rows.length = 8 →
    (s.commitPending = true →
      exec (.stageRow .office args) s = .next ((s.frameTaken .office).answer .office (some 23) ⟨.commitPending, []⟩)) ∧
    (s.commitPending = false →
      (7 < row ∨ l = [] ∨ 16 < l.length ∨ (∃ x ∈ l, ∀ f, x.field ≠ some (.setting f)) ∨
        ¬(l.map StageSetting.field).Nodup) →
      exec (.stageRow .office args) s = .next ((s.frameTaken .office).answer .office (some 23) ⟨.invalid, []⟩)) ∧
    (s.commitPending = false → row ≤ 7 → l ≠ [] → l.length ≤ 16 → (l.map StageSetting.field).Nodup →
      (∀ x ∈ l, ∃ f, x.field = some (.setting f)) →
      ∃ q : Profile, exec (.stageRow .office args) s =
          .next ({ s.frameTaken .office with staged := { s.staged with rows := s.staged.rows.set row q } }.answer .office
            (some 23) ⟨.done, []⟩) ∧
        ∀ f, q.get f = (valueNamed (.setting f) l).getD ((s.staged.row row).get f))

/-- STAGE BAY: the four refusals in their order, or the bay's staged record made or edited, each named field set or made
absent, every other field as it was (absent in a new record). -/
def Obligations.StageBayMakesOrEditsTheRecord : Prop :=
  ∀ (s : State) (args : List Byte) (b : Nat) (l : List StageSetting), s.Takes .office → namedSettings args = some (b, l) →
    (s.commitPending = true →
      exec (.stageBay .office args) s = .next ((s.frameTaken .office).answer .office (some 20) ⟨.commitPending, []⟩)) ∧
    (s.commitPending = false → (b = 0 ∨ 127 < b) →
      exec (.stageBay .office args) s = .next ((s.frameTaken .office).answer .office (some 20) ⟨.noSuchBay, []⟩)) ∧
    (s.commitPending = false → 1 ≤ b → b ≤ 127 →
      (l = [] ∨ 16 < l.length ∨ (∃ x ∈ l, x.field = none ∨ (∃ f, x.field = some (.yardOnly f)) ∨
          x.value = none ∧ x.field ∈ [some .row, some .genset]) ∨
        ¬(l.map StageSetting.field).Nodup ∨
        findKey b s.staged.bays = none ∧ (valueNamed .row l = none ∨ valueNamed .genset l = none)) →
      exec (.stageBay .office args) s = .next ((s.frameTaken .office).answer .office (some 20) ⟨.invalid, []⟩)) ∧
    (s.commitPending = false → 1 ≤ b → b ≤ 127 → l ≠ [] → l.length ≤ 16 → (l.map StageSetting.field).Nodup →
      (∀ x ∈ l, x.field ≠ none ∧ (∀ f, x.field ≠ some (.yardOnly f)) ∧
        (x.value = none → x.field ∉ [some .row, some .genset])) →
      ∀ old : PlanBay, (findKey b s.staged.bays = some old ∨
          findKey b s.staged.bays = none ∧ old = PlanBay.blank ∧ valueNamed .row l ≠ none ∧ valueNamed .genset l ≠ none) →
      ∃ e : PlanBay, exec (.stageBay .office args) s =
          .next ({ s.frameTaken .office with staged := { s.staged with bays := putKey b e s.staged.bays } }.answer .office
            (some 20) ⟨.done, []⟩) ∧
        e.row = ((valueNamed .row l).getD none).getD old.row ∧ e.genset = ((valueNamed .genset l).getD none).getD old.genset ∧
        e.departure = (valueNamed .departure l).getD old.departure ∧
        ∀ f, e.overrides.get f = (valueNamed (.setting f) l).getD (old.overrides.get f))

/-- STAGE DROP: COMMIT_PENDING, NO_SUCH_BAY, or the bay's staged record removed and nothing else of the plan. STAGE CLEAR:
COMMIT_PENDING, or the staged plan made a copy of the committed plan. -/
def Obligations.StageDropAndClearEditTheStagedPlan : Prop :=
  (∀ (s : State) (b : Byte), s.Takes .office →
     (s.commitPending = true →
       exec (.stageDrop .office [b]) s = .next ((s.frameTaken .office).answer .office (some 22) ⟨.commitPending, []⟩)) ∧
     (s.commitPending = false → findKey b.toNat s.staged.bays = none →
       exec (.stageDrop .office [b]) s = .next ((s.frameTaken .office).answer .office (some 22) ⟨.noSuchBay, []⟩)) ∧
     (s.commitPending = false → (findKey b.toNat s.staged.bays).isSome = true →
       ∃ l, exec (.stageDrop .office [b]) s =
           .next ({ s.frameTaken .office with staged := { s.staged with bays := l } }.answer .office (some 22) ⟨.done, []⟩) ∧
         findKey b.toNat l = none ∧ ∀ c, c ≠ b.toNat → findKey c l = findKey c s.staged.bays)) ∧
  (∀ s : State, s.Takes .office →
     (s.commitPending = true →
       exec (.stageClear .office []) s = .next ((s.frameTaken .office).answer .office (some 21) ⟨.commitPending, []⟩)) ∧
     (s.commitPending = false →
       exec (.stageClear .office []) s =
         .next ({ s.frameTaken .office with
             staged := { yard := s.yard, rows := s.rows, bays := s.bays.map fun p : Nat × Bay => (p.1, p.2.entry) } }.answer .office
           (some 21) ⟨.done, []⟩)) ∧
     exec (.stageClear .office []) State.reset = .next (State.reset.answer .office (some 21) ⟨.done, []⟩))

/-- The scan of PLAN COMMIT finds the first check that fails, in the order of R154 to R156, with its code, record and field; it
finds none exactly when the staged plan is valid, no more shore slots are held than its S, and no bay that it drops is in a
defrost. -/
def Obligations.CommitScanAdmitsExactlyTheValidPlans : Prop :=
 (∀ s : State, s.commitFailure = (s.scanChecks.find? Prod.snd).map Prod.fst) ∧
  ∀ s : State, s.AddressesOk → s.FormOk → (s.commitFailure = none ↔
    (∀ f ∈ settingFields, f.range.1 ≤ s.staged.yard.settings.get f ∧ s.staged.yard.settings.get f ≤ f.range.2) ∧
    (∀ f ∈ yardFields, f.inRange (s.staged.yard.only.get f) = true) ∧
    s.staged.yard.settings.Rise ∧ s.staged.yard.settings.criticalLimit < s.staged.yard.settings.lowLimit ∧
    s.staged.yard.only.fbSlots ≤ s.staged.yard.only.slots ∧
    (s.staged.yard.only.fbEligible < s.staged.yard.only.fbDue ∧ s.staged.yard.only.fbDue < s.staged.yard.only.fbUrgent ∧
      s.staged.yard.only.fbUrgent < s.staged.yard.only.fbForced) ∧
    s.slotHolders ≤ s.staged.yard.only.slots ∧
    (∀ n < 8, ∀ f v, (s.staged.row n).get f = some v → f.range.1 ≤ v ∧ v ≤ f.range.2) ∧
    (∀ b e, findKey b s.staged.bays = some e → e.row ≤ 7 ∧ e.genset ≤ 1 ∧ e.departure.getD 0 ≤ 4294967295 ∧
      (∀ f v, e.overrides.get f = some v → f.range.1 ≤ v ∧ v ≤ f.range.2) ∧
      (s.staged.resolve e).Rise ∧ (s.staged.resolve e).criticalLimit < (s.staged.resolve e).lowLimit) ∧
    ∀ b r, s.bay? b = some r → findKey b s.staged.bays = none →
      r.defrost.state ∉ [DefrostState.granted, .running, .stopping, .unknown])

/-- PLAN COMMIT: COMMIT_PENDING; the scan's first failure with its record and field, nothing else changed; pending while a round
runs, with the dropped bays marked; else applied in the same request, the generation advanced, the staged plan in force, its
silence settings taken, the kept bays' records standing but for their recomputed level, PLAN_APPLIED reported, and a round begun
at the lowest address where the loop is not in HALT (the order of its parts by log 27, timer ends by log 39). The frame restarts
the silence timer before the commit is applied (log 45). A round runs while a slot is in progress, in HALT too (log 43), and the
round position stays at the bay of the slot begun (log 26). -/
def Obligations.PlanCommitIsRefusedPendingOrApplied : Prop :=
  ∀ s : State, s.Takes .office →
    (s.commitPending = true →
      exec (.planCommit .office []) s = .next ((s.frameTaken .office).answer .office (some 17) ⟨.commitPending, []⟩)) ∧
    (s.commitPending = false → ∀ f, s.commitFailure = some f →
      exec (.planCommit .office []) s = .next ((s.frameTaken .office).answer .office (some 17)
        ⟨f.code, [byteOf f.record, byteOf f.number, byteOf f.field]⟩)) ∧
    (s.commitPending = false → s.commitFailure = none → s.slot.isSome = true →
      exec (.planCommit .office []) s = .next ({ s.frameTaken .office with
            commitPending := true
            marked := s.addresses.filter fun b => (findKey b s.staged.bays).isNone }.answer .office (some 17)
          ⟨.done, be2 (if 65535 ≤ s.generation then 1 else s.generation + 1) ++ [0]⟩)) ∧
    (s.commitPending = false → s.commitFailure = none → s.slot = none →
      ∃ t : State, exec (.planCommit .office []) s = .next (t.answer .office (some 17)
          ⟨.done, be2 (if 65535 ≤ s.generation then 1 else s.generation + 1) ++ [1]⟩) ∧
        PlanApplied s t ∧ KeptRecordsStand s t ∧ KeptDefrostsStand s t ∧ SilenceCommitted (s.frameTaken .office) t ∧
        t.mode = s.mode ∧ t.clock = s.clock ∧ t.mirrors = s.mirrors ∧
        t.slotFor = (if s.mode = .halt then none else (keysOf s.staged.bays).head?.map fun b => (b, false)) ∧
        ∀ b, s.mode ≠ .halt → (keysOf s.staged.bays).head? = some b → t.nextMain = some b)

/-- A pending commit is applied when the round that runs ends: at the end of the round's last slot, after which the next round
begins at the lowest address of the new plan, or none in HALT or over an empty plan (a slot that no reply was judged in ends as
after a reply judged a miss, and every reply is one to the slot in progress, log 25); in HALT at once where no slot is in progress
(by MODE SET, or by the silence action, log 29), and otherwise at the end of that slot; and within a loop reset, after the
Scheduler's own steps (log 44). Where the mode has left HALT before the last slot ended, the round still ends and the next begins
at that slot's end (log 14). The round position stays at the bay of the slot begun (log 26). Its silence settings take effect with
it (timer ends by log 39), after the restart of the silence timer by the frame that brings the application about (log 45), and
through a round's end the kept bays' defrost records stand but for their recomputed level; the order of an application's parts and
the staged plan after it are by log 27. -/
def Obligations.PendingCommitsAreAppliedWhenTheRoundEnds : Prop :=
  (∀ (s : State) (sl : Slot), s.slot = some sl → s.commitPending = true →
     (s.roundEnding = true ∨ sl.judged = true ∧ s.RoundEnds sl) →
     ∃ t : State, exec .pollSlotEnd s = .next t ∧ PlanApplied s t ∧ SilenceCommitted s t ∧
       (sl.judged = true → KeptRecordsStand s t ∧ KeptDefrostsStand s t) ∧
       t.mode = s.mode ∧ t.clock = s.clock ∧ t.roundEnding = false ∧
       t.slotFor = (if s.mode = .halt then none else (keysOf s.staged.bays).head?.map fun b => (b, false)) ∧
       t.nextMain = (if s.mode = .halt then none else (keysOf s.staged.bays).head?)) ∧
  (∀ (s u : State) (sl : Slot) (f : List Byte), s.slot = some sl → sl.judged = false → s.commitPending = true → BadReply f sl →
     exec (.replyReceived f) s = .next u → u.RoundEnds sl →
     ∃ t : State, exec .pollSlotEnd s = .next t ∧ PlanApplied u t ∧ SilenceCommitted u t ∧ KeptRecordsStand u t ∧
       KeptDefrostsStand u t ∧ t.mode = s.mode ∧ t.clock = s.clock ∧ t.roundEnding = false ∧
       t.slotFor = (if s.mode = .halt then none else (keysOf s.staged.bays).head?.map fun b => (b, false)) ∧
       t.nextMain = (if s.mode = .halt then none else (keysOf s.staged.bays).head?)) ∧
  (∀ s : State, s.Takes .office → s.commitPending = true → s.silence ≠ .silent → s.mode ≠ .halt →
     ∃ t : State, exec (.modeSet .office [4]) s = .next (t.answer .office (some 16) ⟨.done, [byteOf s.mode.code, 4]⟩) ∧
       t.mode = .halt ∧ t.nextMain = none ∧
       (s.slot = none → PlanApplied s t ∧ KeptRecordsStand s t ∧ SilenceCommitted (s.frameTaken .office) t ∧ t.slot = none ∧
         t.roundEnding = false) ∧
       (s.slot.isSome = true → t.commitPending = true ∧ t.staged = s.staged ∧ t.generation = s.generation ∧ t.yard = s.yard ∧
         t.slot = s.slot ∧ t.roundEnding = true)) ∧
  (∀ (s : State) (x : SilenceTimer), s.silenceTimer = some x → x.deadline ≤ s.now → s.silence = .watching →
     s.commitPending = true → s.mode ≠ .halt → s.yard.only.silenceAction ≠ 0 → s.slot = none →
     ∃ t : State, exec .silenceTimerExpiry s = .next t ∧ PlanApplied s t ∧ KeptRecordsStand s t ∧ t.mode = .halt ∧
       t.silence = .silent ∧ t.silenceTimer = none ∧ t.savedMode = some s.mode) ∧
  (∀ s : State, s.Takes .office → s.commitPending = true →
     ∃ t : State, exec (.loopReset .office []) s = .next (t.answer .office (some 14)
         ⟨.done, 2 :: be2 (if 65535 ≤ s.generation then 1 else s.generation + 1)⟩) ∧
       PlanApplied s t ∧ (s.silence ≠ .silent → SilenceCommitted (s.frameTaken .office) t) ∧
       (s.silence = .silent → SilenceEnded (s.frameTaken .office) t) ∧
       t.mode = .listen ∧ t.cursor = none ∧ t.roundEnding = false ∧
       t.nextMain = (keysOf s.staged.bays).head? ∧
       t.slotFor = (keysOf s.staged.bays).head?.map (fun b => (b, false)) ∧
       (∀ sl, t.slot = some sl → sl.carried = none ∧ sl.num = 0) ∧
       ∀ b r', t.bay? b = some r' → r'.loop.presence = .pending ∧ r'.loop.missCount = 0 ∧ r'.loop.baseline = none ∧
         r'.loop.flight = none ∧ r'.readings.stale = true ∧ r'.door.beaconConfirmed = none)

/-- Every step keeps the keyed lists rising and every address of the two plans from 1 to 127; and for every bay of the committed
plan the resolved thresholds rise strictly and Fc lies below Fl, whatever commits are made. -/
def Obligations.EveryStepKeepsThePlans : Prop :=
  (∀ s t : State, s.FormOk → s.AddressesOk → step s = .next t → t.FormOk ∧ t.AddressesOk) ∧
  (∀ s t : State, s.FormOk → s.AddressesOk → s.SettingsOk → step s = .next t → t.SettingsOk)

/-- Every step keeps every counter in the range that the spec gives it: frost debt, interval count and miss count at most 255, door
seconds at most 3,600, endurance, open run and mismatch generation at most 65,535, the start check, the start failures, the runs,
temperatures and fuel levels in theirs; in the ranges of R146 the bays' resolved settings and the whole committed plan, yard
profile, row profiles and bay records, and so a pending plan; the fallback profile the one that the yard profile gives; the claims'
leases from 1 to 240 minutes and their start levels at most 100; the raise counter at most 64, the generation at most 65,535,
the yard clock at most 4,294,967,295, the running silence limit at most 600. That claims stand on planned bays alone, which O56
keeps, is a premise, because a lease of the default length is resolved from the bay's settings. -/
def Obligations.EveryStepKeepsTheCounters : Prop :=
  ∀ s t : State, s.FormOk → s.AddressesOk → s.ClaimsOk → s.CountersOk → step s = .next t → t.CountersOk

/-- CLOCK SET sets the clock and starts the minute timer at 60 s (its end by log 39); when that runs out the clock advances by one
minute, staying at its last, and the timer starts again. At each, the SHORT flag of every bay with a departure follows the new
minute, and FUEL_SHORT is posted for each bay whose flag is set from clear. DEPARTURE SET writes the departure to the committed
and, where there is one, the staged record of a planned bay, and makes its departure check at once, with FUEL_SHORT likewise;
any other address is NO_SUCH_BAY. -/
def Obligations.ClockAndDeparturesMakeTheDepartureChecks : Prop :=
  (∀ (s : State) (a b c d : Byte) (m : Nat), s.Takes .office →
     m = a.toNat * 16777216 + b.toNat * 65536 + c.toNat * 256 + d.toNat →
     ∃ t : State, exec (.clockSet .office [a, b, c, d]) s = .next (t.answer .office (some 7) ⟨.done, []⟩) ∧
       t = { s.frameTaken .office with clock := some m, minuteEnd := some (s.now + 60 * 40), bays := t.bays, ports := t.ports } ∧
       Posts s.ports t.ports ∧ ShortReported s t ∧
       BaysRel (fun r r' => r' =
         if r.entry.departure.isSome then { r with fuel := { r.fuel with short := r.shortAt m } } else r) s.bays t.bays) ∧
  (∀ (s : State) (m e : Nat), s.clock = some m → s.minuteEnd = some e → e ≤ s.now →
     ∃ t : State, exec .yardClockAdvance s = .next t ∧
       t = { s with clock := some (if 4294967295 ≤ m then 4294967295 else m + 1), minuteEnd := some (s.now + 60 * 40),
                    bays := t.bays, ports := t.ports } ∧
       Posts s.ports t.ports ∧ ShortReported s t ∧
       BaysRel (fun r r' => r' =
         if r.entry.departure.isSome then
           { r with fuel := { r.fuel with short := r.shortAt (if 4294967295 ≤ m then 4294967295 else m + 1) } }
         else r) s.bays t.bays) ∧
  (∀ (s : State) (b given m3 m2 m1 m0 : Byte), s.Takes .office → given.toNat ≤ 1 →
    (s.bay? b.toNat = none →
      exec (.departureSet .office [b, given, m3, m2, m1, m0]) s =
        .next ((s.frameTaken .office).answer .office (some 10) ⟨.noSuchBay, []⟩)) ∧
    ∀ (r : Bay) (d : Option Nat), s.bay? b.toNat = some r →
      d = (if given = 1 then some (m3.toNat * 16777216 + m2.toNat * 65536 + m1.toNat * 256 + m0.toNat) else none) →
      ∃ t : State, exec (.departureSet .office [b, given, m3, m2, m1, m0]) s =
          .next (t.answer .office (some 10) ⟨.done, []⟩) ∧
        t = { s.frameTaken .office with
          bays := t.bays
          staged := { s.staged with bays := mapKey b.toNat (fun e => { e with departure := d }) s.staged.bays }
          ports := t.ports } ∧
        Posts s.ports t.ports ∧ ShortReported s t ∧ keysOf t.bays = keysOf s.bays ∧ OthersStand b.toNat s t ∧
        t.bay? b.toNat = some { r with
          entry := { r.entry with departure := d }
          fuel := { r.fuel with short :=
            match s.clock with
            | some m => { r with entry := { r.entry with departure := d } : Bay }.shortAt m
            | none => false } })

/-! ## The loop -/

/-- The poll that a slot begins with: NONE with the baseline, or 0, in LISTEN and HALT and while the baseline is unknown; otherwise
the highest-ranked want that may be carried, STOP, then a start, then the beacon: issued new above the baseline, sent again with
its number, or in place of a command of lower rank, which is dropped and, if it was sent, leaves its number as the baseline.
A beacon command in flight stays the candidate beside a start wanted that may not be carried.
A start in flight that may not be carried is held and the poll carries NONE (log 18). -/
def Obligations.PollsCarryTheHighestRankedWant : Prop :=
  ∀ (s : State) (b : Nat) (r : Bay),
    (s.mode = .listen ∨ s.mode = .halt ∨ r.loop.baseline = none →
      s.compose b r = (r.loop, ⟨none, r.loop.baseline.getD 0⟩)) ∧
    ∀ (base : BitVec 2) (mayStart : Prop) (start : LoopCmd), r.loop.baseline = some base → s.mode = .run ∨ s.mode = .fallback →
      (mayStart ↔ (r.defrost.want = some .startShore ∧ start = .startShore ∨
          r.defrost.want = some .startEngine ∧ start = .startEngine) ∧
        r.defrost.state = .granted ∧ s.claimed b = false ∧ r.readings.door ≠ .opened) →
      (r.loop.flight = none →
        (∀ c, (r.defrost.want = some .stop ∧ c = .stop ∨ mayStart ∧ c = start) →
          s.compose b r = ({ r.loop with flight := some ⟨c, base + 1, 1⟩ }, ⟨some c, base + 1⟩)) ∧
        (r.defrost.want = none ∨ r.defrost.want = some .startShore ∧ start = .startShore ∧ ¬mayStart ∨
            r.defrost.want = some .startEngine ∧ start = .startEngine ∧ ¬mayStart →
          (r.door.beaconConfirmed = some r.door.beaconWanted → s.compose b r = (r.loop, ⟨none, base⟩)) ∧
          ∀ c, r.door.beaconConfirmed ≠ some r.door.beaconWanted → c = (if r.door.beaconWanted then .beaconOn else .beaconOff) →
            s.compose b r = ({ r.loop with flight := some ⟨c, base + 1, 1⟩ }, ⟨some c, base + 1⟩))) ∧
      ∀ f, r.loop.flight = some f →
        ((r.defrost.want = some .stop ∧ f.cmd = .stop ∨ mayStart ∧ f.cmd = start ∨
            (r.defrost.want = none ∨ r.defrost.want = some .startShore ∧ start = .startShore ∧ ¬mayStart ∨
                r.defrost.want = some .startEngine ∧ start = .startEngine ∧ ¬mayStart) ∧
              (f.cmd = .beaconOn ∨ f.cmd = .beaconOff)) →
          s.compose b r = ({ r.loop with flight := some { f with sends := min (f.sends + 1) 255 } }, ⟨some f.cmd, f.num⟩)) ∧
        (∀ c base', (r.defrost.want = some .stop ∧ c = .stop ∧ f.cmd ≠ .stop ∨
            mayStart ∧ c = start ∧ (f.cmd = .beaconOn ∨ f.cmd = .beaconOff)) →
          base' = (if 1 ≤ f.sends then f.num else base) →
          s.compose b r = ({ r.loop with baseline := some base', flight := some ⟨c, base' + 1, 1⟩ }, ⟨some c, base' + 1⟩)) ∧
        ((r.defrost.want = some .startShore ∧ start = .startShore ∨ r.defrost.want = some .startEngine ∧ start = .startEngine) →
          ¬mayStart → f.cmd = start → s.compose b r = (r.loop, ⟨none, base⟩))

/-- The echo of a valid reply: a baseline adopted, a command confirmed, a start not taken on its third send, a command
renumbered above an adopted baseline, or no change (for the third send with an unexpected echo, log 20). -/
def Obligations.EchoesConfirmAdoptOrGiveUp : Prop :=
  ∀ (l : LoopRec) (echo : BitVec 2) (carried : Option LoopCmd),
    (l.baseline = none → l.echoed echo carried = ({ l with baseline := some echo }, .adopted)) ∧
    ∀ base, l.baseline = some base →
      (l.flight = none → l.echoed echo carried =
        if echo = base then (l, .noChange) else ({ l with baseline := some echo }, .adopted)) ∧
      ∀ f, l.flight = some f →
        (echo = f.num → l.echoed echo carried = ({ l with baseline := some echo, flight := none }, .confirmed f.cmd)) ∧
        (echo ≠ f.num → (f.cmd = .startShore ∨ f.cmd = .startEngine) → carried = some f.cmd → 3 ≤ f.sends →
          l.echoed echo carried = ({ l with baseline := some echo, flight := none }, .startNotTaken)) ∧
        (echo ≠ f.num → ¬((f.cmd = .startShore ∨ f.cmd = .startEngine) ∧ carried = some f.cmd ∧ 3 ≤ f.sends) →
          l.echoed echo carried =
            if echo = base then (l, .noChange)
            else ({ l with baseline := some echo, flight := some { f with num := echo + 1 } }, .adopted))

/-- The end of a slot whose reply was judged, where it applies no pending commit: the slot that follows, its poll as the command
holder composes it for that bay, the round position and the watch cursor. The watch slot goes to the bay after the cursor in
admission order, to the first after the last, and to the first where the cursor is none. After the round's last slot the next round
begins at the lowest address, or none in HALT; so too at the end of a slot that HALT made the last of its round and that ends after
the mode has left HALT (log 14). The round position moves on at the end of the main slot (log 26). -/
def Obligations.SlotsFollowTheRoundAndTheWatch : Prop :=
  (∀ (s : State) (sl : Slot), s.slot = some sl → sl.judged = true → (s.commitPending = true → ¬ s.RoundEnds sl) →
     ∃ t : State, exec .pollSlotEnd s = .next t ∧
       t = { s with slot := t.slot, nextMain := t.nextMain, cursor := t.cursor, roundEnding := false, bays := t.bays } ∧
       BaysRel (fun r r' => r' = { r with loop := { r.loop with flight := r'.loop.flight, baseline := r'.loop.baseline } })
         s.bays t.bays ∧
       (∀ b w, t.slotFor = some (b, w) → ∃ (sl' : Slot) (r r' : Bay), t.slot = some sl' ∧ sl'.judged = false ∧
         s.bay? b = some r ∧ t.bay? b = some r' ∧ s.compose b r = (r'.loop, ⟨sl'.carried, sl'.num⟩) ∧ OthersStand b s t) ∧
       (∀ w, s.roundEnding = false → sl.watch = false → s.nextWatch = some w → s.planned w = true →
         t.slotFor = some (w, true) ∧ t.cursor = some w ∧ t.nextMain = s.addresses.find? fun a => sl.bay < a) ∧
       (∀ a, s.roundEnding = false → sl.watch = false → s.watch = [] → (s.addresses.find? fun a => sl.bay < a) = some a →
         t.slotFor = some (a, false) ∧ t.nextMain = some a ∧ t.cursor = s.cursor) ∧
       (∀ a, s.roundEnding = false → sl.watch = true → s.nextMain = some a → s.planned a = true →
         t.slotFor = some (a, false) ∧ t.nextMain = some a ∧ t.cursor = s.cursor) ∧
       (s.RoundEnds sl →
         t.slotFor = (if s.mode = .halt then none else s.addresses.head?.map fun a => (a, false)) ∧
         t.nextMain = (if s.mode = .halt then none else s.addresses.head?) ∧ t.cursor = s.cursor)) ∧
  (∀ (s : State) (before after : List Nat) (c : Nat),
     (s.watch = [] → s.cursor = none → s.nextWatch = none) ∧
     (∀ w, s.watch = w :: after → s.cursor = none → s.nextWatch = some w) ∧
     (∀ w, s.watch = before ++ c :: w :: after → c ∉ before → s.cursor = some c → s.nextWatch = some w) ∧
     (s.watch = before ++ [c] → c ∉ before → s.cursor = some c → s.nextWatch = (before ++ [c]).head?))

/-- A reply that fails its check or its address echo is judged, and is a miss at once; a slot that ends without a judged reply is
the same miss, and what follows it, the next slot, the round's end or a pending commit, follows as after such a reply. A miss is
counted to at most 255, the third makes the bay LOST, stale, and announced by BAY_LOST, and no reading, frost, fuel or door field
moves; the command in flight stands, but for the third send of a start, which is given up and on a GRANTED bay is a start failure;
and entry into LOST abandons a STOPPING bay whose timer is spent (a drip time of 0 by log 15, the drip timer's end by log 39, the
order of the two events of one miss by log 37). A reply in no slot, after the slot's reply has been judged, or of fewer than
fifteen bytes completes nothing, and any other is the reply of the slot in progress (log 25). -/
def Obligations.MissesAreCountedOncePerSlot : Prop :=
  (∀ (s : State) (sl : Slot) (f : List Byte), s.slot = some sl → sl.judged = false → BadReply f sl →
     ∃ u t : State, exec (.replyReceived f) s = .next u ∧ exec .pollSlotEnd s = .next t ∧ exec .pollSlotEnd u = .next t) ∧
  (∀ (s : State) (sl : Slot) (r : Bay), s.slot = some sl → sl.judged = false → s.commitPending = false →
     s.bay? sl.bay = some r →
     ∃ (t : State) (r' : Bay), exec .pollSlotEnd s = .next t ∧ t.bay? sl.bay = some r' ∧
       MissTaken s t sl.bay sl.carried r r' ∧
       Calm { s with slot := t.slot, nextMain := t.nextMain, roundEnding := t.roundEnding } t) ∧
  (∀ (s : State) (f : List Byte),
     ((s.slot = none ∨ (∃ sl, s.slot = some sl ∧ sl.judged = true) ∨ f.length < 15) →
       exec (.replyReceived f) s = .next s) ∧
     ∀ (sl : Slot) (r : Bay), s.slot = some sl → sl.judged = false → BadReply f sl → s.bay? sl.bay = some r →
       ∃ (t : State) (r' : Bay), exec (.replyReceived f) s = .next t ∧ t.bay? sl.bay = some r' ∧
         MissTaken s t sl.bay sl.carried r r' ∧ Calm { s with slot := some { sl with judged := true } } t ∧
         (¬r.ThirdSend sl.carried → ¬r.LostWhileStopping →
           r'.loop.flight = r.loop.flight ∧ r'.loop.baseline = r.loop.baseline) ∧
         (r.ThirdSend sl.carried → r'.loop.flight = none ∧ r'.loop.baseline = r.loop.baseline))

/-- A valid reply, which is one to the poll of the slot in progress (log 25): the bay is PRESENT with no misses, a return that was
reported LOST is announced by BAY_FOUND, every field of the reply is stored by its rule, UNIT_ALARM is posted once an alarm
episode and once a generation for a genset mismatch, the command holder takes the echo (a defrost command is dropped where DS
clears its want), a confirmed beacon command sets the confirmed state, the slot is judged, a FUEL claim without a start level
takes a fresh one, and the plan, time, loop position and silence stand. The order in which these events are posted is the model's
choice (log 37). -/
def Obligations.ValidReplyStoresEveryField : Prop :=
  ∀ (s : State) (f : List Byte) (sl : Slot) (r : Bay) (l : LoopRec) (o : HolderOutcome), ValidReply s f sl r →
    r.loop.echoed ((f.getD 5 0).setWidth 2) sl.carried = (l, o) →
    ∃ (t : State) (r' : Bay), exec (.replyReceived f) s = .next t ∧ t.bay? sl.bay = some r' ∧
      Calm { s with slot := some { sl with judged := true } } t ∧
      r'.entry = r.entry ∧ r'.settings = r.settings ∧ r'.loop.presence = .present ∧ r'.loop.missCount = 0 ∧
      (r.loop.presence = .present → r'.loop.lostReported = r.loop.lostReported) ∧
      (r.loop.presence ≠ .present → r'.loop.lostReported = false ∧
        (r.loop.lostReported = true → t.reported .office .bayFound sl.bay)) ∧
      (r'.loop.flight = l.flight ∧ r'.loop.baseline = l.baseline ∨
        ∃ fl, l.flight = some fl ∧ fl.cmd ≠ .beaconOn ∧ fl.cmd ≠ .beaconOff ∧ r'.loop.flight = none ∧
          r'.loop.baseline = if 1 ≤ fl.sends then some fl.num else l.baseline) ∧
      r'.door.beaconConfirmed = (match o with
        | .confirmed .beaconOn => some true | .confirmed .beaconOff => some false | _ => r.door.beaconConfirmed) ∧
      r'.readings.alarmReported = (match (f.getD 2 0).toNat with
        | 6 => true | 1 | 2 | 3 | 4 | 5 => false | _ => r.readings.alarmReported) ∧
      r'.readings.mismatchGen =
        (if (f.getD 4 0).toNat = 2 ∧ r.entry.genset ≠ 1 then s.generation else r.readings.mismatchGen) ∧
      ((f.getD 2 0).toNat = 6 → r.readings.alarmReported = false → t.reported .office .unitAlarm sl.bay) ∧
      ((f.getD 4 0).toNat = 2 → r.entry.genset ≠ 1 → r.readings.mismatchGen ≠ s.generation →
        t.reported .office .unitAlarm sl.bay) ∧
      r'.readings.unitMode = (match (f.getD 2 0).toNat with
        | 1 => some .cool | 2 => some .heat | 3 => some .defrost | 4 => some .null | 5 => some .off | 6 => some .alarm
        | _ => r.readings.unitMode) ∧
      r'.readings.door = (match (f.getD 3 0).toNat with | 0 => .closed | 1 => .opened | _ => .unknown) ∧
      r'.readings.doorUnknownRun =
        (if 1 < (f.getD 3 0).toNat then min (r.readings.doorUnknownRun + 1) 255 else 0) ∧
      r'.readings.reportedSource = (match (f.getD 4 0).toNat with | 1 => .shore | 2 => .engine | _ => .none) ∧
      r'.readings.sourceInUse =
        (if r'.readings.reportedSource = .engine ∧ r.entry.genset ≠ 1 then .none else r'.readings.reportedSource) ∧
      r'.readings.faultCode = some (f.getD 13 0).toNat ∧ r'.readings.stale = false ∧
      r'.readings.lastReply = (match s.clock with | some m => .minute m | none => .clockUnset) ∧
      ((f.getD 1 0).toNat ≠ 1 → (f.getD 1 0).toNat ≠ 2 →
        r'.readings.unitClass = r.readings.unitClass ∧ r'.readings.coil = r.readings.coil ∧
        r'.readings.returnAir = r.readings.returnAir ∧ r'.readings.burnRate = r.readings.burnRate) ∧
      ((f.getD 1 0).toNat = 1 →
        r'.readings.unitClass = some .a ∧ r'.readings.burnRate = 0 ∧
        r'.readings.coil = temperature .a (f.getD 8 0) (f.getD 9 0) ∧
        r'.readings.returnAir = temperature .a (f.getD 10 0) (f.getD 11 0)) ∧
      ((f.getD 1 0).toNat = 2 →
        r'.readings.unitClass = some .b ∧ r'.readings.burnRate = (f.getD 12 0).toNat ∧
        r'.readings.coil = temperature .b (f.getD 8 0) (f.getD 9 0) ∧
        r'.readings.returnAir = temperature .b (f.getD 10 0) (f.getD 11 0)) ∧
      r'.readings.fuelLevel = (r.readings.takeFuel (fuelField (UnitClass.ofCode (f.getD 1 0).toNat) (f.take 15))).fuelLevel ∧
      r'.readings.invalidFuelRun =
        (r.readings.takeFuel (fuelField (UnitClass.ofCode (f.getD 1 0).toNat) (f.take 15))).invalidFuelRun ∧
      t.claims = (match s.claimOf sl.bay, fuelField (UnitClass.ofCode (f.getD 1 0).toNat) (f.take 15) with
        | some c, .valid l =>
          if c.holder = .fuel ∧ c.fillStart = none then mapKey sl.bay (fun c => { c with fillStart := some l }) s.claims
          else s.claims
        | _, _ => s.claims) ∧
      OthersGrantOnly sl.bay s t

/-- Temperatures and fuel fields by class: tenths of whole degrees for class A, tenths for class B, UNKNOWN outside 500 tenths
either way; two digits or the full flag for class A, a clamped percentage or no sender for class B; the run of invalid
fields makes the level UNKNOWN at 3; only a valid level is fresh; the coil term is 0 while either temperature is UNKNOWN. The
class code selects the form of the fuel field, and one that names no class makes it invalid (this sentence is R29's on the fuel
field; the rest of that rule is not stated here, so that R29 is not among the rules cited). -/
def Obligations.ClassFieldsAreDecodedByTheirRules : Prop :=
  (∀ f : List Byte, fuelField (UnitClass.ofCode 1) f = fuelFieldA (f.getD 6 0) (f.getD 7 0) ∧
    fuelField (UnitClass.ofCode 2) f = fuelFieldB (f.getD 6 0) ∧
    ∀ n, n ≠ 1 → n ≠ 2 → fuelField (UnitClass.ofCode n) f = .invalid) ∧
  (∀ hi lo : Byte, temperature .a hi lo =
    if -50 ≤ hi.toInt ∧ hi.toInt ≤ 50 then some (hi.toInt * 10) else none) ∧
  (∀ hi lo : Byte, temperature .b hi lo =
    if -500 ≤ (hi ++ lo : BitVec 16).toInt ∧ (hi ++ lo : BitVec 16).toInt ≤ 500 then some (hi ++ lo : BitVec 16).toInt
    else none) ∧
  (∀ d fl : Byte, fuelFieldA d fl =
    if fl.toNat % 2 = 1 then .valid 100
    else if d.toNat / 16 ≤ 9 ∧ d.toNat % 16 ≤ 9 then .valid (10 * (d.toNat / 16) + d.toNat % 16) else .invalid) ∧
  (∀ v : Byte, fuelFieldB v = if v = 255 then .noSender else if v.toNat ≤ 100 then .valid v.toNat else .valid 100) ∧
  (∀ (st : Settings Nat) (p : Presence) (coil returnAir : Option Int), coil = none ∨ returnAir = none →
    coilTerm st p coil returnAir = 0) ∧
  ∀ r : Readings, ∀ l,
    (FuelField.valid l).fresh = true ∧ FuelField.noSender.fresh = false ∧ FuelField.invalid.fresh = false ∧
    r.takeFuel (.valid l) = { r with fuelLevel := some l, invalidFuelRun := 0 } ∧
    r.takeFuel .noSender = { r with fuelLevel := none } ∧
    r.takeFuel .invalid =
      { r with
        fuelLevel := if r.invalidFuelRun + 1 = 1 ∨ r.invalidFuelRun + 1 = 2 then r.fuelLevel else none
        invalidFuelRun := min (r.invalidFuelRun + 1) 255 }

/-- The door check state after a valid reply in the slot in progress (log 25), by the state held, the reading, the claim and the
switch-fault report, with the grace timer (its end by log 39), the open run, the beacon wanted and the auto-raised mark, which
stand but where a close from AJAR, or from SWITCH_FAULT with the mark set, puts the beacon out under auto-beacon. -/
def Obligations.ValidReplyMovesTheDoorState : Prop :=
  ∀ (s : State) (f : List Byte) (sl : Slot) (r : Bay), ValidReply s f sl r →
    ∃ (t : State) (r' : Bay), exec (.replyReceived f) s = .next t ∧ t.bay? sl.bay = some r' ∧
      ((f.getD 3 0).toNat = 0 → r'.door.state = .shut ∧ r'.door.graceEnd = none ∧ r'.door.openRun = 0 ∧
        r'.door.listEntry = none ∧
        (r.door.state = .ajar → t.reported .patrol .doorShut sl.bay ∧
          (r.settings.autoBeacon = 1 → r'.door.beaconWanted = false ∧ r'.door.autoRaised = false)) ∧
        (r.door.state = .switchFault → r.settings.autoBeacon = 1 → r.door.autoRaised = true →
          r'.door.beaconWanted = false ∧ r'.door.autoRaised = false)) ∧
      ((f.getD 3 0).toNat ≠ 0 ∨ r.settings.autoBeacon ≠ 1 ∨
          r.door.state ≠ .ajar ∧ ¬(r.door.state = .switchFault ∧ r.door.autoRaised = true) →
        r'.door.beaconWanted = r.door.beaconWanted ∧ r'.door.autoRaised = r.door.autoRaised) ∧
      ((f.getD 3 0).toNat = 1 → (r.door.state = .shut ∨ r.door.state = .switchFault) → s.claimed sl.bay = false →
        r'.door.state = .openTiming ∧ r'.door.graceEnd = some (s.now + r.settings.doorGrace * 40) ∧
        r'.door.listEntry = none ∧ r'.door.openRun = r.door.openRun) ∧
      ((f.getD 3 0).toNat = 1 → (r.door.state = .shut ∨ r.door.state = .switchFault) → s.claimed sl.bay = true →
        r'.door.state = .openAttended ∧ r'.door.listEntry = none ∧ r'.door.openRun = r.door.openRun) ∧
      ((f.getD 3 0).toNat = 1 → r.door.state ≠ .shut → r.door.state ≠ .switchFault →
        r'.door.state = r.door.state ∧ r'.door.graceEnd = r.door.graceEnd ∧ r'.door.listEntry = r.door.listEntry ∧
        r'.door.openRun = r.door.openRun) ∧
      (1 < (f.getD 3 0).toNat → r.readings.doorUnknownRun ≠ 2 →
        r'.door.state = r.door.state ∧ r'.door.graceEnd = r.door.graceEnd ∧ r'.door.listEntry = r.door.listEntry ∧
        r'.door.openRun = r.door.openRun) ∧
      (1 < (f.getD 3 0).toNat → r.readings.doorUnknownRun = 2 →
        r'.door.state = .switchFault ∧ r'.door.graceEnd = none ∧ r'.door.listEntry = some (s.now / 40) ∧
        r'.door.openRun = r.door.openRun ∧
        t.reported .patrol .doorSwitchFault sl.bay)

/-- A valid reply in the slot in progress (log 25) recomputes the endurance from the level and the rate as stored, with its flags,
grades the fuel state from the state held, and makes the departure check. -/
def Obligations.ValidReplyRecomputesTheFuel : Prop :=
  ∀ (s : State) (f : List Byte) (sl : Slot) (r : Bay), ValidReply s f sl r →
    ∃ (t : State) (r' : Bay), exec (.replyReceived f) s = .next t ∧ t.bay? sl.bay = some r' ∧
      FuelRecomputed s.clock r.fuel.state r' ∧ r'.loop.presence = .present ∧ FuelReported t sl.bay r r'

/-- Every step keeps the watch list: at most 4 bays, none twice, each with a cause, filled while a bay with a cause waits. A bay
that gains a cause is appended where there is room; one that loses its last cause leaves, the bays behind it close up, a cursor on
it moves to the bay before it, or to none, and the lowest planned address that waits with a cause is appended. -/
def Obligations.EveryStepKeepsTheWatchList : Prop :=
  (∀ s t : State, s.WatchOk → Rising s.staged.bays → step s = .next t → t.WatchOk) ∧
  (∀ (s : State) (b : Nat),
     (∃ t : State, s.causeBegins b = t ∧ t = { s with watch := t.watch } ∧ WatchEntered s t b) ∧
     (s.hasCause b = true ∨ b ∉ s.watch → s.causeEnds b = s) ∧
     (s.hasCause b = false → Rising s.bays →
       ∃ t : State, s.causeEnds b = t ∧ t = { s with watch := t.watch, cursor := t.cursor } ∧ WatchLeft s t b))

/-- In HALT the round position stays clear and no slot follows the last one of the round that the entry ended. -/
def Obligations.HaltStopsTheLoop : Prop :=
  ∀ s t : State, s.HaltOk → step s = .next t → t.HaltOk ∧
    (s.mode = .halt → t.mode = .halt → ∀ sl', t.slot = some sl' → ∃ sl, s.slot = some sl ∧
      (sl' = sl ∨ sl' = { sl with judged := true }))

/-- A slot that a command begins (at the end of a slot also where it equals the one before) carries a command only in RUN or
FALLBACK, to a bay whose baseline is known, and a start only to a bay that is GRANTED, holds no claim and whose door does not
read OPEN. -/
def Obligations.CommandsAreCarriedOnlyWhereAllowed : Prop :=
  ∀ (s t : State) (sl : Slot) (c : LoopCmd), step s = .next t → t.slot = some sl → sl.judged = false →
    s.slot ≠ some sl ∨ s.pending.head? = some .pollSlotEnd → sl.carried = some c →
    (t.mode = .run ∨ t.mode = .fallback) ∧
    ∃ r, t.bay? sl.bay = some r ∧ r.loop.baseline.isSome = true ∧
      (c = .startShore ∨ c = .startEngine →
        r.defrost.state = .granted ∧ t.claimed sl.bay = false ∧ r.readings.door ≠ .opened)

/-! ## Frost debt and defrosts -/

/-- In GRANTED, RUNNING, STOPPING and UNKNOWN an accrual expiry is suspended: it leaves the debt, the count and the level, discards
the seconds and restarts the timer with the AI in force (its end by log 39); the mark of the second in progress is the model's
own (log 24). In CLEAR, QUEUED and DRIP an accruing expiry adds the base, the capped door term and the coil term, to at most
255, counts the interval, makes the maximum-interval check, restarts the interval and recomputes the level; a CLEAR bay whose
level changed to ELIGIBLE or higher joins the queue at its tail unless it is held out, a QUEUED bay whose level changed to NONE
leaves to CLEAR, and a DRIP bay's record stands; other bays change at most by a grant. The thresholds in force are the bay's
resolved ones, in FALLBACK those of the fallback profile in use, and of four that rise each is the least debt of its level. -/
def Obligations.AccrualExpiryAccruesOrIsSuspended : Prop :=
  (∀ (s : State) (r : Bay),
    (s.mode ≠ .fallback →
      s.thresholds r = ⟨r.settings.eligible, r.settings.due, r.settings.urgent, r.settings.forced⟩) ∧
    (s.mode = .fallback →
      s.thresholds r = ⟨s.fallback.eligible, s.fallback.due, s.fallback.urgent, s.fallback.forced⟩)) ∧
  (∀ (x : Thresholds) (debt : Nat), x.eligible < x.due → x.due < x.urgent → x.urgent < x.forced →
    (debt < x.eligible → x.level debt = .none) ∧
    (x.eligible ≤ debt → debt < x.due → x.level debt = .eligible) ∧
    (x.due ≤ debt → debt < x.urgent → x.level debt = .due) ∧
    (x.urgent ≤ debt → debt < x.forced → x.level debt = .urgent) ∧
    (x.forced ≤ debt → x.level debt = .forced)) ∧
  (∀ (s : State) (b : Nat) (r : Bay), s.bay? b = some r → r.frost.accrualEnd ≤ s.now →
    r.defrost.state ∈ [DefrostState.granted, .running, .stopping, .unknown] →
    ∃ m : Bool, exec (.accrualExpiry b) s = .next (s.modFrost b fun f =>
      { f with doorSeconds := 0, secondCounted := m, accrualEnd := s.now + r.settings.ai * 60 * 40 })) ∧
  ∀ (s : State) (b : Nat) (r : Bay) (seconds coil sum count : Nat), s.bay? b = some r → r.frost.accrualEnd ≤ s.now →
    r.defrost.state ∈ [DefrostState.clear, .queued, .drip] →
    seconds = (if r.readings.door = .opened then min (r.frost.doorSeconds + 1) 3600 else r.frost.doorSeconds) →
    (r.loop.presence ≠ .present ∨ r.readings.coil = none ∨ r.readings.returnAir = none → coil = 0) →
    (∀ c a, r.loop.presence = .present → r.readings.coil = some c → r.readings.returnAir = some a →
      coil = if a - c ≤ r.settings.coilThreshold then 0
        else min ((a - c - r.settings.coilThreshold).toNat / r.settings.coilStep) r.settings.coilCap) →
    sum = min (r.frost.debt + (r.settings.base + min (seconds / r.settings.doorStep) r.settings.doorCap + coil)) 255 →
    count = min (r.frost.intervalCount + 1) 255 →
    ∃ (t : State) (r' : Bay), exec (.accrualExpiry b) s = .next t ∧ t.bay? b = some r' ∧
      (r.settings.maxIntervals ≠ 0 ∧ r.settings.maxIntervals ≤ count ∧ r.frost.overdue = false →
        r'.frost.debt = max sum (s.thresholds r).forced ∧ r'.frost.overdue = true ∧ t.reported .office .frostOverdue b) ∧
      (r.settings.maxIntervals = 0 ∨ count < r.settings.maxIntervals ∨ r.frost.overdue = true →
        r'.frost.debt = sum ∧ r'.frost.overdue = r.frost.overdue) ∧
      r'.frost.intervalCount = count ∧ r'.frost.doorSeconds = 0 ∧
      r'.frost.accrualEnd = s.now + r.settings.ai * 60 * 40 ∧
      r'.frost.urgency = (s.thresholds r).level r'.frost.debt ∧
      LevelTaken s t b r r' ∧ t.lastJoin ≤ s.lastJoin + 1 ∧
      (r.defrost.state = .drip → b ∉ s.queuedBays → r'.defrost = r.defrost) ∧
      r'.entry = r.entry ∧ r'.settings = r.settings ∧ r'.readings = r.readings ∧ r'.fuel = r.fuel ∧ r'.door = r.door ∧
      r'.loop.presence = r.loop.presence ∧ r'.loop.missCount = r.loop.missCount ∧
      OthersGrantOnly b s t ∧ Calm s t ∧ t.claims = s.claims ∧ Posts s.ports t.ports

/-- The next shore grant goes to a grantable SHORE-kind bay of the queue, only in NORMAL with a slot free; a raise takes the oldest;
else no grantable SHORE-kind bay stands at a higher level, none at the same level stands before it, and an ELIGIBLE bay needs
more free slots than M; a run grants it. A selection run grants only shore defrosts that hold a slot and engine defrosts that
the fuel allows (the defrost timer's end by log 39), takes slots only up to the limit in force, and outside NORMAL leaves the
slots and the raise counter. Each shore grant takes one slot and moves the raise counter: to 0 where the counter has reached K
in force, else up by 1, and not at all under a K of 0. A bay is grantable exactly where the seven conditions hold; the limit in
force is S, in FALLBACK the S of the fallback profile in use, and under a pending commit no more than the pending plan's; a
raise is due where K in force is at least 1 and the counter has reached it; and no shore grant is made exactly where no slot is
free in NORMAL or no grantable SHORE-kind bay qualifies. -/
def Obligations.SelectionPicksByLevelWithinTheLimit : Prop :=
  (∀ (s : State) (b : Nat) (r : Bay), s.grantable b r = true ↔
     r.loop.presence = .present ∧ s.claimOf b = none ∧ r.readings.door ≠ .opened ∧ r.defrost.refusal = false ∧
     r.readings.unitMode ≠ some .off ∧ r.readings.unitMode ≠ some .alarm ∧ b ∉ s.marked ∧
     (s.mode = .run ∨ s.mode = .fallback)) ∧
  (∀ s : State,
     (s.mode ≠ .fallback → s.commitPending = false → s.shoreLimit = s.yard.only.slots) ∧
     (s.mode ≠ .fallback → s.commitPending = true → s.shoreLimit = min s.yard.only.slots s.staged.yard.only.slots) ∧
     (s.mode = .fallback → s.commitPending = false → s.shoreLimit = s.fallback.slots) ∧
     (s.mode = .fallback → s.commitPending = true → s.shoreLimit = min s.fallback.slots s.staged.yard.only.fbSlots) ∧
     ∀ k, k = (if s.mode = .fallback then s.fallback.raisePeriod else s.yard.only.raisePeriod) →
       (s.raiseDue = true ↔ 1 ≤ k ∧ k ≤ s.raiseCounter)) ∧
  (∀ s : State, s.pickShore = none ↔
     s.shed ≠ .normal ∨ s.shoreLimit ≤ s.slotHolders ∨
     ∀ x ∈ s.queue, ∀ r, s.bay? x.bay = some r → s.grantable x.bay r = true → r.readings.sourceInUse ≠ .engine →
       s.raiseDue = false ∧ (r.frost.urgency = .none ∨
         r.frost.urgency = .eligible ∧ s.shoreLimit - s.slotHolders ≤ s.yard.only.margin)) ∧
  (∀ (s : State) (b : Nat), s.pickShore = some b →
     s.shed = .normal ∧ s.slotHolders < s.shoreLimit ∧
     ∃ (before after : List QueueEntry) (q : QueueEntry) (r : Bay), s.queue = before ++ q :: after ∧ q.bay = b ∧
       s.bay? b = some r ∧ s.grantable b r = true ∧ r.readings.sourceInUse ≠ .engine ∧
       (∀ x ∈ before, ∀ r', s.bay? x.bay = some r' → s.grantable x.bay r' = true → r'.readings.sourceInUse ≠ .engine →
         s.raiseDue = false ∧ r'.frost.urgency ≠ r.frost.urgency) ∧
       (s.raiseDue = false →
         r.frost.urgency ≠ .none ∧
         (∀ x ∈ s.queue, ∀ r', s.bay? x.bay = some r' → s.grantable x.bay r' = true → r'.readings.sourceInUse ≠ .engine →
           r'.frost.urgency.code ≤ r.frost.urgency.code) ∧
         (r.frost.urgency = .eligible → s.yard.only.margin < s.shoreLimit - s.slotHolders)) ∧
       ∃ r', s.select.bay? b = some r' ∧ r'.defrost.state = .granted ∧ r'.defrost.kind = some .shore ∧ r'.defrost.slot = true) ∧
  (∀ s : State, s.QueueOk → ∃ granted : List Nat, granted.Nodup ∧
     (∀ b, b ∈ granted ↔ s.inDefrost b .granted = false ∧
       ∃ r', s.select.bay? b = some r' ∧ r'.defrost.state = .granted ∧ r'.defrost.slot = true) ∧
     s.select.slotHolders = s.slotHolders + granted.length ∧
     ∀ k, k = (if s.mode = .fallback then s.fallback.raisePeriod else s.yard.only.raisePeriod) →
       s.select.raiseCounter =
         Nat.iterate (fun c => if k = 0 then c else if k ≤ c then 0 else c + 1) granted.length s.raiseCounter) ∧
  (∀ s : State,
     (s.select.slotHolders ≤ max s.slotHolders s.shoreLimit) ∧
     (s.shed ≠ .normal → s.select.slotHolders = s.slotHolders ∧ s.select.raiseCounter = s.raiseCounter) ∧
     (s.mode = .listen ∨ s.mode = .halt → ∀ b, s.select.inDefrost b .granted = s.inDefrost b .granted) ∧
     (∀ b r', s.select.bay? b = some r' → r'.defrost.state = .granted → s.inDefrost b .granted = false →
       (r'.defrost.kind = some .shore ∧ r'.defrost.slot = true ∧ r'.defrost.want = some .startShore ∨
         r'.defrost.kind = some .engine ∧ r'.defrost.want = some .startEngine ∧
           ∃ e, r'.fuel.endurance = some e ∧ r'.settings.defrostReserve ≤ e) ∧
       r'.defrost.timer = .running (s.now + r'.settings.maxDefrost * 60 * 40) ∧ r'.defrost.confirmed = false ∧
       r'.defrost.checkCount = 0 ∧ s.claimed b = false ∧ r'.loop.presence = .present ∧ r'.readings.door ≠ .opened ∧
       r'.defrost.refusal = false))

/-- A selection run makes every grant that qualifies: after it no SHORE-kind bay qualifies for a shore grant, an ENGINE-kind bay
at DUE or higher or a SHORE-kind bay at FORCED that could be granted on its engine is no longer queued, those that fuel or the
want of a genset holds carry their marks, each reported when its mark is set from clear, and the fuel-block marks of the others
are clear; a bay that leaves the queue is GRANTED. So stands the queue after every command in which a bay joined it or was
restored to it, a slot freed, a queued bay's level changed, the mode changed to RUN or FALLBACK, the shed state left or came to
NORMAL, a commit was applied, or a claim on a queued bay ended; and after a valid reply (log 25) from a QUEUED bay, the end of the
restart gap, a release in DRAINING, a drip timer's expiry that queues the bay, and a DEFROST REQUEST on a QUEUED bay, which clears
its refusal. -/
def Obligations.SelectionRunsMakeEveryGrantThatQualifies : Prop :=
  (∀ s : State, s.select.Settled ∧
     (∀ b ∈ s.queuedBays, s.planned b = true → b ∉ s.select.queuedBays → s.select.inDefrost b .granted = true) ∧
     ∀ b r r', s.bay? b = some r → s.select.bay? b = some r' →
       (r'.defrost.fuelBlock = true → r.defrost.fuelBlock = false → s.select.reported .fuel .fuelBlocksDefrost b) ∧
       (r'.defrost.waitingReported = true → r.defrost.waitingReported = false →
         s.select.reported .office .frostForcedWaiting b)) ∧
  (∀ (s t : State) (f : List Byte) (sl : Slot) (r : Bay), ValidReply s f sl r → r.defrost.state = .queued →
     exec (.replyReceived f) s = .next t → t.Settled) ∧
  (∀ (s t : State) (e : Nat), s.gapEnd = some e → e ≤ s.now → exec .restartGapExpiry s = .next t → t.Settled) ∧
  (∀ (s t : State) (m : LoopMode), s.Takes .office → s.silence ≠ .silent → s.mode ≠ m → m = .run ∨ m = .fallback →
     exec (.modeSet .office [byteOf m.code]) s = .next t → t.Settled) ∧
  (∀ (s t : State) (b e : Nat) (r : Bay), s.bay? b = some r → r.defrost.state = .drip → r.defrost.dripEnd = some e → e ≤ s.now →
     r.frost.urgency ≠ .none → b ∉ s.marked → exec (.dripTimerExpiry b) s = .next t → t.Settled) ∧
  (∀ s t : State, s.Takes .office → s.commitPending = false → s.commitFailure = none → s.slot = none →
     exec (.planCommit .office []) s = .next t → t.Settled) ∧
  (∀ (s t : State) (e : Nat), s.filterEnd = some e → e ≤ s.now → s.shedLine = false → s.shed = .draining →
     exec .shedFilterExpiry s = .next t → t.Settled) ∧
  (∀ (s t : State) (b : Byte), s.Takes .office → s.inDefrost b.toNat .queued = true →
     exec (.defrostRequest .office [b]) s = .next t → t.Settled) ∧
  (∀ (c : Instr) (s t : State), exec c s = .next t → SelectionDue s t → t.Settled)

/-- A GRANTED bay seen in DEFROST runs: want and start check cleared, the kept entry discarded, the refusal and the failures
cleared (log 17), kind, slot and timer kept, DEFROST_STARTED posted. An UNKNOWN bay seen in DEFROST is RUNNING again, its want
cleared, in HALT too, by the reply of the slot in progress at the entry to it (log 38, the model's choice). A RUNNING or STOPPING
bay seen in DEFROST stays so, the refusal and the failures cleared (log 17). A RUNNING or UNKNOWN bay seen out of DEFROST ends
normally (RUNNING with ALARM is abandoned, DEFROST_ABANDONED posted and the frost record kept), a STOPPING bay ends stopped: DRIP
with the drip timer started (a drip time of 0 by log 15, the timer's end by log 39), the slot and the want gone (log 16), and
after an end the count and the mark cleared, the debt 0 after a normal end and kept after a stopped one, DEFROST_ENDED posted. A
reply is one to the slot in progress (log 25). A reply that shows no mode, and one out of DEFROST on a CLEAR or DRIP bay, moves no
defrost record. -/
def Obligations.DefrostFollowsTheModeShown : Prop :=
  (∀ (s : State) (f : List Byte) (sl : Slot) (r : Bay), ValidReply s f sl r → (f.getD 2 0).toNat = 3 →
     r.defrost.state ∈ [DefrostState.granted, .unknown, .running, .stopping] →
     ∃ (t : State) (r' : Bay), exec (.replyReceived f) s = .next t ∧ t.bay? sl.bay = some r' ∧
       r'.defrost = (match r.defrost.state with
         | .granted => { r.defrost with
             state := .running, want := none, kept := none, confirmed := false, checkCount := 0, refusal := false,
             startFailures := 0 }
         | .unknown => { r.defrost with state := .running, want := none, refusal := false, startFailures := 0 }
         | _ => { r.defrost with refusal := false, startFailures := 0 }) ∧
       (r.defrost.state = .granted ∨ r.defrost.state = .unknown →
         ∀ fl, r'.loop.flight = some fl → fl.cmd = .beaconOn ∨ fl.cmd = .beaconOff) ∧ r'.frost = r.frost ∧
       t.slotHolders = s.slotHolders ∧ t.queue = s.queue ∧
       (r.defrost.state = .granted → t.reported .office .defrostStarted sl.bay)) ∧
  (∀ (s : State) (f : List Byte) (sl : Slot) (r : Bay), ValidReply s f sl r → sl.bay ∉ s.queuedBays →
     (r.defrost.state = .running ∧ (f.getD 2 0).toNat ∈ [1, 2, 4, 5] ∨
       (r.defrost.state = .unknown ∨ r.defrost.state = .stopping) ∧ (f.getD 2 0).toNat ∈ [1, 2, 4, 5, 6]) →
     ∃ (t : State) (r' : Bay), exec (.replyReceived f) s = .next t ∧ t.bay? sl.bay = some r' ∧
       DripEntered s t sl.bay r r' { r.defrost with
         kind := none, slot := false, want := none, timer := .absent, kept := none, confirmed := false, checkCount := 0
         startFailures := if r.defrost.state = .stopping then r.defrost.startFailures else 0 } ∧
       r'.frost.intervalCount = 0 ∧ r'.frost.overdue = false ∧
       r'.frost.debt = (if r.defrost.state = .stopping then r.frost.debt else 0) ∧
       (r.defrost.state ≠ .stopping → r'.frost.urgency = (s.thresholds r).level 0) ∧
       r'.frost.doorSeconds = r.frost.doorSeconds ∧ r'.frost.accrualEnd = r.frost.accrualEnd ∧
       t.reported .office .defrostEnded sl.bay) ∧
  (∀ (s : State) (f : List Byte) (sl : Slot) (r : Bay), ValidReply s f sl r → sl.bay ∉ s.queuedBays →
     r.defrost.state = .running → (f.getD 2 0).toNat = 6 →
     ∃ (t : State) (r' : Bay), exec (.replyReceived f) s = .next t ∧ t.bay? sl.bay = some r' ∧
       DripEntered s t sl.bay r r' { r.defrost with
         kind := none, slot := false, want := none, timer := .absent, kept := none, confirmed := false, checkCount := 0 } ∧
       r'.frost = r.frost ∧ t.reported .office .defrostAbandoned sl.bay) ∧
  (∀ (s : State) (f : List Byte) (sl : Slot) (r : Bay), ValidReply s f sl r →
     ((f.getD 2 0).toNat = 0 ∨ 6 < (f.getD 2 0).toNat) ∧
         r.defrost.state ∈ [DefrostState.clear, .running, .stopping, .drip, .unknown] ∨
       (f.getD 2 0).toNat ∈ [1, 2, 4, 5, 6] ∧ r.defrost.state ∈ [DefrostState.clear, .drip] →
     ∃ (t : State) (r' : Bay), exec (.replyReceived f) s = .next t ∧ t.bay? sl.bay = some r' ∧
       r'.defrost = r.defrost ∧ r'.frost = r.frost ∧ t.queue = s.queue ∧ t.slotHolders = s.slotHolders)

/-- A valid reply in the slot in progress (log 25) from a GRANTED bay that does not show DEFROST. OFF, ALARM, or an OPEN door
beside COOL, HEAT or NULL withdraws the grant: the start check, the want, the slot and the timer gone, back to its place in the
queue, or CLEAR at level NONE. COOL, HEAT and NULL with the door not OPEN count in the start check once the start was confirmed by
an earlier reply, and the second such reply is a start failure, whatever the command holder's outcome of that reply; on a bay that
keeps its grant a start not taken is a start failure and a confirmed start sets the confirmed mark. A reply that shows no mode
moves no defrost state, so that an OPEN door in it does not withdraw the grant (log 18). A start failure enters DRIP (a drip time
of 0 by log 15, the drip timer's end by log 39), posts DEFROST_START_FAILED, counts to 3 and refuses the bay at the third. -/
def Obligations.RepliesCheckConfirmOrWithdrawAGrant : Prop :=
  ∀ (s : State) (f : List Byte) (sl : Slot) (r : Bay) (o : HolderOutcome) (silent counts open_ checked : Prop),
    ValidReply s f sl r → r.defrost.state = .granted → sl.bay ∉ s.queuedBays →
    o = (r.loop.echoed ((f.getD 5 0).setWidth 2) sl.carried).2 →
    (silent ↔ (f.getD 2 0).toNat = 0 ∨ 6 < (f.getD 2 0).toNat) → (counts ↔ (f.getD 2 0).toNat ∈ [1, 2, 4]) →
    (open_ ↔ (f.getD 3 0).toNat = 1) → (checked ↔ r.defrost.confirmed = true ∧ 1 ≤ r.defrost.checkCount) →
    (f.getD 2 0).toNat ≠ 3 →
    ∃ (t : State) (r' : Bay), exec (.replyReceived f) s = .next t ∧ t.bay? sl.bay = some r' ∧ r'.frost = r.frost ∧
      (¬silent → ¬counts ∨ open_ →
        r'.defrost.state = (if r.frost.urgency = .none then .clear else .queued) ∧ r'.defrost.kind = none ∧
        r'.defrost.slot = false ∧ r'.defrost.want = none ∧ r'.defrost.timer = .absent ∧ r'.defrost.kept = none ∧
        r'.defrost.confirmed = false ∧ r'.defrost.checkCount = 0 ∧ r'.defrost.refusal = r.defrost.refusal ∧
        r'.defrost.startFailures = r.defrost.startFailures ∧
        (r.frost.urgency ≠ .none → ∀ e j, r.defrost.kept = some (e, j) →
          { bay := sl.bay, entryTime := e, join := j } ∈ t.queue)) ∧
      (counts ∧ ¬open_ ∧ checked ∨ (silent ∨ counts ∧ ¬open_) ∧ o = .startNotTaken →
        t.reported .office .defrostStartFailed sl.bay ∧
        (2 ≤ r.defrost.startFailures → t.reported .office .defrostRefused sl.bay) ∧
        DripEntered s t sl.bay r r' { r.defrost with
          kind := none, slot := false, want := none, timer := .absent, kept := none, confirmed := false, checkCount := 0
          startFailures := min (r.defrost.startFailures + 1) 3
          refusal := r.defrost.refusal || decide (2 ≤ r.defrost.startFailures) }) ∧
      (silent ∨ counts ∧ ¬open_ ∧ ¬checked → o ≠ .startNotTaken →
        r'.defrost = { r.defrost with
          confirmed := r.defrost.confirmed || decide (o = .confirmed .startShore ∨ o = .confirmed .startEngine)
          checkCount :=
            if (f.getD 2 0).toNat ∈ [1, 2, 4] ∧ r.defrost.confirmed = true then r.defrost.checkCount + 1
            else r.defrost.checkCount } ∧
        t.queue = s.queue ∧ t.slotHolders = s.slotHolders)

/-- A defrost that a unit began by itself, seen in a valid reply in the slot in progress (log 25): adopted on the engine, in
LISTEN, or with a slot free to adopt; otherwise stopped with a want of STOP. The bay leaves queue and drip, its refusal and
failures are cleared (log 17), its defrost timer starts (its end by log 39). -/
def Obligations.UnplannedDefrostIsAdoptedOrStopped : Prop :=
  ∀ (s : State) (f : List Byte) (sl : Slot) (r : Bay) (engine free : Prop), ValidReply s f sl r →
    r.defrost.state ∈ [DefrostState.clear, .queued, .drip] → (f.getD 2 0).toNat = 3 → s.mode ≠ .halt →
    (engine ↔ (f.getD 4 0).toNat = 2 ∧ r.entry.genset = 1) →
    (free ↔ s.slotHolders < s.shoreLimit ∧ s.shed = .normal ∧ sl.bay ∉ s.marked) →
    ∃ (t : State) (r' : Bay), exec (.replyReceived f) s = .next t ∧ t.bay? sl.bay = some r' ∧
      r'.defrost.timer = .running (s.now + r.settings.maxDefrost * 60 * 40) ∧ r'.defrost.dripEnd = none ∧
      r'.defrost.refusal = false ∧ r'.defrost.startFailures = 0 ∧ sl.bay ∉ t.queuedBays ∧
      (engine → r'.defrost.state = .running ∧ r'.defrost.kind = some .engine ∧ r'.defrost.slot = r.defrost.slot ∧
        t.reported .office .defrostStarted sl.bay) ∧
      (¬engine → r'.defrost.kind = some .shore) ∧
      (¬engine → free → r'.defrost.state = .running ∧ r'.defrost.slot = true ∧
        t.reported .office .defrostStarted sl.bay) ∧
      (¬engine → ¬free → s.mode = .listen → r'.defrost.state = .running ∧ r'.defrost.slot = r.defrost.slot ∧
        t.reported .office .defrostStarted sl.bay) ∧
      (¬engine → ¬free → s.mode ≠ .listen → r'.defrost.state = .stopping ∧ r'.defrost.want = some .stop ∧
        r'.defrost.slot = r.defrost.slot ∧ (sl.bay ∈ t.watch ∨ 4 ≤ t.watch.length) ∧
        t.reported .office .defrostUnplannedStopped sl.bay)

/-- The defrost timer runs out. RUNNING and not LOST: STOPPING with the timer spent, a want of STOP, a watch cause,
DEFROST_OVERRUN, the slot and the debt kept. STOPPING that answers: the timer spent and nothing else. RUNNING or STOPPING
while LOST, and UNKNOWN: abandoned. GRANTED: a start failure, refused at the third. DRIP in these cases with the want
gone (of an UNKNOWN record by log 16; a drip time of 0 by log 15, the drip timer's end by log 39), the debt and the interval kept. -/
def Obligations.DefrostTimerExpiryActsByState : Prop :=
  (∀ (s : State) (b d : Nat) (r : Bay), s.bay? b = some r → r.defrost.timer = .running d → d ≤ s.now →
     r.loop.presence ≠ .lost →
     (r.defrost.state = .running → ∃ r' : Bay,
       r' = { r with
         defrost := { r.defrost with state := .stopping, timer := .spent, want := some .stop }
         loop := { r.loop with flight := r'.loop.flight, baseline := r'.loop.baseline } } ∧
       (∀ fl, r'.loop.flight = some fl → fl.cmd ≠ .startShore ∧ fl.cmd ≠ .startEngine) ∧
       ∃ t : State, exec (.defrostTimerExpiry b) s = .next (t.post .defrostOverrun b
           [.byte (kindCode r.defrost.kind), .byte r.frost.debt]) ∧
         t = { s with bays := t.bays, watch := if b ∈ s.watch ∨ 4 ≤ s.watch.length then s.watch else s.watch ++ [b] } ∧
         keysOf t.bays = keysOf s.bays ∧ t.bay? b = some r' ∧ OthersStand b s t) ∧
     (r.defrost.state = .stopping → exec (.defrostTimerExpiry b) s = .next (s.modDefrost b fun d => { d with timer := .spent }))) ∧
  (∀ (s : State) (b d : Nat) (r : Bay), s.bay? b = some r → r.defrost.timer = .running d → d ≤ s.now →
     b ∉ s.queuedBays →
     ((r.defrost.state = .running ∨ r.defrost.state = .stopping) ∧ r.loop.presence = .lost ∨
       r.defrost.state = .unknown ∨ r.defrost.state = .granted) →
     ∃ (t : State) (r' : Bay), exec (.defrostTimerExpiry b) s = .next t ∧ t.bay? b = some r' ∧
       DripEntered s t b r r' { r.defrost with
         kind := none, slot := false, want := none, timer := .absent, kept := none, confirmed := false, checkCount := 0
         startFailures := if r.defrost.state = .granted then min (r.defrost.startFailures + 1) 3 else r.defrost.startFailures
         refusal := r.defrost.refusal || decide (r.defrost.state = .granted ∧ 2 ≤ r.defrost.startFailures) } ∧
       (r.defrost.state ≠ .granted → t.reported .office .defrostAbandoned b) ∧
       (r.defrost.state = .granted → t.reported .office .defrostStartFailed b ∧
         (2 ≤ r.defrost.startFailures → t.reported .office .defrostRefused b)) ∧
       Defrosts s t)

/-- The drip timer runs out: CLEAR at level NONE or while a pending commit marks the bay; else the bay joins the queue at its
tail with the present reading of the seconds and the next join number, and may be granted at once. -/
def Obligations.DripEndsInTheQueueOrClear : Prop :=
  ∀ (s : State) (b e : Nat) (r : Bay), s.bay? b = some r → r.defrost.state = .drip → r.defrost.dripEnd = some e → e ≤ s.now →
    ((r.frost.urgency = .none ∨ b ∈ s.marked) →
      exec (.dripTimerExpiry b) s = .next (s.modDefrost b fun d => { d with state := .clear, dripEnd := none })) ∧
    (r.frost.urgency ≠ .none → b ∉ s.marked → b ∉ s.queuedBays →
      ∃ (t : State) (r' : Bay), exec (.dripTimerExpiry b) s = .next t ∧ t.bay? b = some r' ∧ t.lastJoin = s.lastJoin + 1 ∧
        r'.defrost.dripEnd = none ∧
        (r'.defrost.state = .queued ∧ { bay := b, entryTime := s.now / 40, join := s.lastJoin + 1 } ∈ t.queue ∨
          r'.defrost.state = .granted ∧ r'.defrost.kept = some (s.now / 40, s.lastJoin + 1)) ∧
        Defrosts s t)

/-- DEFROST CANCEL: NO_SUCH_BAY, WRONG_STATE, a RUNNING bay to STOPPING with its debt halved, a QUEUED or GRANTED bay to DRIP
with its debt kept and its slot freed (a drip time of 0 by log 15, the drip timer's end by log 39). -/
def Obligations.DefrostCancelActsOnTheStateItFinds : Prop :=
  ∀ (s : State) (b : Byte), s.Takes .office →
    (s.bay? b.toNat = none →
      exec (.defrostCancel .office [b]) s = .next ((s.frameTaken .office).answer .office (some 8) ⟨.noSuchBay, []⟩)) ∧
    ∀ r, s.bay? b.toNat = some r →
      (r.defrost.state ∈ [DefrostState.clear, .stopping, .drip, .unknown] →
        exec (.defrostCancel .office [b]) s = .next ((s.frameTaken .office).answer .office (some 8) ⟨.wrongState, []⟩)) ∧
      (r.defrost.state = .running →
        ∃ (t : State) (r' : Bay), exec (.defrostCancel .office [b]) s =
            .next (t.answer .office (some 8) ⟨.done, [4, byteOf (r.frost.debt / 2)]⟩) ∧
          t = { s.frameTaken .office with
            bays := t.bays
            watch := if b.toNat ∈ s.watch ∨ 4 ≤ s.watch.length then s.watch else s.watch ++ [b.toNat] } ∧
          t.bay? b.toNat = some r' ∧ OthersStand b.toNat s t ∧ keysOf t.bays = keysOf s.bays ∧
          r'.defrost = { r.defrost with state := .stopping, want := some .stop } ∧
          r'.frost = { r.frost with
            debt := r.frost.debt / 2, urgency := (s.thresholds r).level (r.frost.debt / 2) }) ∧
      (r.defrost.state = .queued ∨ r.defrost.state = .granted ∧ b.toNat ∉ s.queuedBays →
        ∃ (t : State) (r' : Bay), exec (.defrostCancel .office [b]) s =
            .next (t.answer .office (some 8) ⟨.done, [byteOf r'.defrost.state.code, byteOf r.frost.debt]⟩) ∧
          t.bay? b.toNat = some r' ∧ r'.frost = r.frost ∧
          DripEntered s t b.toNat r r' { r.defrost with
            kind := none, slot := false, want := none, timer := .absent, kept := none, confirmed := false, checkCount := 0
            fuelBlock := r.defrost.fuelBlock && decide (r.defrost.state = .granted)
            waitingReported := r.defrost.waitingReported && decide (r.defrost.state = .granted) } ∧
          Defrosts (s.frameTaken .office) t)

/-- DEFROST REQUEST: NO_SUCH_BAY, or the debt raised to at least the DUE threshold in force, the level recomputed, the refusal
and the failures cleared, in every defrost state; a CLEAR bay whose level changed to ELIGIBLE or higher joins the queue at its tail
unless it is held out, a QUEUED bay whose level changed to NONE leaves to CLEAR, and the record of a bay in another state stands
(the order of the two effects by log 34, the failures cleared with the refusal by log 17). -/
def Obligations.DefrostRequestRaisesToDue : Prop :=
  ∀ (s : State) (b : Byte), s.Takes .office →
    (s.bay? b.toNat = none →
      exec (.defrostRequest .office [b]) s = .next ((s.frameTaken .office).answer .office (some 9) ⟨.noSuchBay, []⟩)) ∧
    ∀ r debt, s.bay? b.toNat = some r → debt = max r.frost.debt (s.thresholds r).due →
      ∃ (t : State) (r' : Bay), exec (.defrostRequest .office [b]) s =
          .next (t.answer .office (some 9) ⟨.done, [byteOf debt, byteOf ((s.thresholds r).level debt).code]⟩) ∧
        t.bay? b.toNat = some r' ∧ r'.frost = { r.frost with debt := debt, urgency := (s.thresholds r).level debt } ∧
        r'.defrost.refusal = false ∧ r'.defrost.startFailures = 0 ∧ OthersGrantOnly b.toNat s t ∧
        LevelTaken s t b.toNat r r' ∧ t.lastJoin ≤ s.lastJoin + 1 ∧
        (r.defrost.state ∉ [DefrostState.clear, .queued] → b.toNat ∉ s.queuedBays →
          r'.defrost = { r.defrost with refusal := false, startFailures := 0 }) ∧
        Frosts (s.frameTaken .office) t

/-- Every step keeps the frost queue and the shore slots: each bay once, exactly the QUEUED bays, in order of join number and
entry time, a ticket kept by every GRANTED bay, the slot-holder count the number of records that hold a slot. -/
def Obligations.EveryStepKeepsTheFrostQueue : Prop :=
  ∀ s t : State, s.QueueOk → Rising s.staged.bays → step s = .next t → t.QueueOk

/-- Every step keeps the shore budget, the slots held never more than the committed S; and the shed state: slots are held in
DRAINING and none in SHED and RESTART, the dwell stands in SHED alone, the gap in RESTART alone, a release is remembered in SHED
alone (in NORMAL and RESTART the dwell is absent and the mark clear by log 22). -/
def Obligations.EveryStepKeepsTheShoreBudgetAndTheShedState : Prop :=
  (∀ s t : State, s.BudgetOk → step s = .next t → t.BudgetOk) ∧
  (∀ s t : State, s.ShedOk → step s = .next t → t.ShedOk)

/-! ## Doors, beacons, lists -/

/-- A second that ends with the stored door reading OPEN raises the open run, to at most 65,535, and the seconds of the accrual
interval, to at most 3,600, unless an expiry has counted that second already; with another reading stored by then it is no
door-open second, and only the mark of such an expiry goes (log 24). The grace timer runs out on an OPEN_TIMING bay: AJAR with
its list entry time, auto-beacon applied, DOOR_AJAR posted with the open run and the beacon wanted. Nothing else changes. -/
def Obligations.DoorSecondsAndTheGraceTimerAreTaken : Prop :=
  (∀ (s : State) (b : Nat) (r : Bay), s.bay? b = some r → r.readings.door = .opened →
     exec (.doorOpenSecond b) s = .next (s.modBay b fun r => { r with
       door := { r.door with openRun := min (r.door.openRun + 1) 65535 }
       frost :=
         if r.frost.secondCounted then { r.frost with secondCounted := false }
         else { r.frost with doorSeconds := min (r.frost.doorSeconds + 1) 3600 } })) ∧
  (∀ (s : State) (b : Nat) (r : Bay), s.bay? b = some r → r.readings.door ≠ .opened →
     exec (.doorOpenSecond b) s = .next (s.modFrost b fun f => { f with secondCounted := false })) ∧
  (∀ (s : State) (b e : Nat) (r : Bay), s.bay? b = some r → r.door.state = .openTiming → r.door.graceEnd = some e → e ≤ s.now →
     exec (.graceTimerExpiry b) s = .next ((s.modDoor b fun d =>
         { d with
           state := .ajar, graceEnd := none, listEntry := some (s.now / 40)
           beaconWanted := r.door.beaconWanted || decide (r.settings.autoBeacon = 1)
           autoRaised := d.autoRaised || decide (r.settings.autoBeacon = 1) }).post .doorAjar b
       [.word r.door.openRun, .byte (if r.door.beaconWanted = true ∨ r.settings.autoBeacon = 1 then 1 else 0)]))

/-- BEACON SET: a state that is neither OFF nor ON is INVALID, then a bay outside the plan is NO_SUCH_BAY; else the wanted
state is the one named and the auto-raised mark is clear, whatever the bay's other state. -/
def Obligations.BeaconSetRecordsTheWantedState : Prop :=
  ∀ (s : State) (p : Port) (b v : Byte), s.Takes p → p = .office ∨ p = .patrol →
    (1 < v.toNat → exec (.beaconSet p [b, v]) s = .next ((s.frameTaken p).answer p (some 3) ⟨.invalid, []⟩)) ∧
    (v.toNat ≤ 1 → s.planned b.toNat = false →
      exec (.beaconSet p [b, v]) s = .next ((s.frameTaken p).answer p (some 3) ⟨.noSuchBay, []⟩)) ∧
    (v.toNat ≤ 1 → s.planned b.toNat = true →
      exec (.beaconSet p [b, v]) s =
        .next (((s.frameTaken p).modDoor b.toNat fun d =>
          { d with beaconWanted := decide (v = 1), autoRaised := false }).answer p (some 3) ⟨.done, []⟩))

/-- BAY READ: NO_SUCH_BAY, or DONE with a summary of 61 bytes that gives every field of the bay's record at its place; the bytes of
an absent departure, an unknown baseline, an absent last-reply time, an UNKNOWN endurance and an absent grace timer are not
stated (log 8). The grace time left is in whole seconds (log 21), and a last-reply time without a clock is flagged both present
and unset (log 35). The seconds left of a claim are 0 where its lease end is reached and its expiry not yet taken (log 42). No
state of the yard changes, only the counter of the free values (log 8). -/
def Obligations.BayReadReturnsTheSummary : Prop :=
  ∀ (s : State) (p : Port) (b : Byte), s.Takes p →
    (s.bay? b.toNat = none → exec (.bayRead p [b]) s = .next ((s.frameTaken p).answer p (some 2) ⟨.noSuchBay, []⟩)) ∧
    ∀ r, s.bay? b.toNat = some r → ∃ (y : List Byte) (bit : Bool → Nat), (bit true = 1 ∧ bit false = 0) ∧
      exec (.bayRead p [b]) s =
        .next ({ s.frameTaken p with freeCount := s.freeCount + 1 }.answer p (some 2) ⟨.done, y⟩) ∧ y.length = 61 ∧
      y.take 3 = [b, byteOf r.entry.row, byteOf (bit (decide (r.entry.genset = 1)) + 2 * bit r.entry.departure.isSome +
        4 * bit (decide (b.toNat ∈ s.marked)))] ∧
      (∀ d, r.entry.departure = some d → (y.drop 3).take 4 = be4 d) ∧
      (y.drop 7).take 3 = [byteOf r.loop.presence.code, byteOf r.loop.missCount,
        byteOf (bit (decide (b.toNat ∈ s.watch)) + 2 * bit r.loop.baseline.isSome + 4 * bit r.loop.flight.isSome +
          8 * bit r.loop.lostReported)] ∧
      (∀ n, r.loop.baseline = some n → y[10]? = some (byteOf n.toNat)) ∧
      (y.drop 11).take 3 = (match r.loop.flight with
        | some fl => [byteOf (loopCmdCode (some fl.cmd)), byteOf fl.num.toNat, byteOf fl.sends]
        | none => [0, 0, 0]) ∧
      (y.drop 14).take 15 =
        [byteOf (unitClassCode r.readings.unitClass), byteOf (unitModeCode r.readings.unitMode), byteOf r.readings.door.code,
         byteOf r.readings.doorUnknownRun, byteOf r.readings.reportedSource.code, byteOf r.readings.sourceInUse.code] ++
        signed2 (r.readings.coil.getD (-32768)) ++ signed2 (r.readings.returnAir.getD (-32768)) ++
        [byteOf (r.readings.fuelLevel.getD 255), byteOf r.readings.invalidFuelRun, byteOf r.readings.burnRate,
         byteOf (r.readings.faultCode.getD 0),
         byteOf (bit r.readings.faultCode.isSome + 2 * bit r.readings.stale + 4 * bit r.readings.alarmReported +
           match r.readings.lastReply with | .absent => 0 | .minute _ => 8 | .clockUnset => 24)] ∧
      (∀ m, r.readings.lastReply = .minute m → (y.drop 29).take 4 = be4 m) ∧
      (y.drop 33).take 11 = be2 r.readings.mismatchGen ++
        [byteOf r.frost.debt, byteOf r.frost.urgency.code, byteOf r.frost.intervalCount, byteOf (bit r.frost.overdue),
         byteOf r.defrost.state.code, byteOf (kindCode r.defrost.kind), byteOf (wantCode r.defrost.want),
         byteOf r.defrost.startFailures,
         byteOf (bit r.defrost.slot + 2 * bit r.defrost.refusal + 4 * bit r.defrost.fuelBlock)] ∧
      (∀ e, r.fuel.endurance = some e → (y.drop 44).take 2 = be2 e) ∧
      (y.drop 46).take 3 = [byteOf r.fuel.state.code,
        byteOf (bit r.fuel.endurance.isSome + 2 * bit r.fuel.estimated + 4 * bit r.fuel.saturated + 8 * bit r.fuel.short),
        byteOf r.door.state.code] ∧
      (∀ e, r.door.graceEnd = some e → (y.drop 49).take 2 = be2 ((e - s.now) / 40)) ∧
      (y.drop 51).take 5 = be2 r.door.openRun ++ [byteOf (bit r.door.beaconWanted),
        byteOf (beaconConfirmedCode r.door.beaconConfirmed), byteOf (bit r.door.graceEnd.isSome + 2 * bit r.door.autoRaised)] ∧
      y.drop 56 = (match s.claimOf b.toNat with
        | none => [255, 0, 0, 0, 255]
        | some c => [byteOf (portCode c.holder), byteOf (claimKindCode c.holder)] ++ be2 (c.leaseEnd - s.now / 40) ++
            [byteOf (c.fillStart.getD 255)])

/-- The door list holds exactly the AJAR bays without a claim and the SWITCH_FAULT bays, oldest list entry first and then by
address. The fuel list holds exactly the LOW, CRITICAL, short and fuel-blocked bays, CRITICAL first, then by rising endurance
with UNKNOWN last, then by address (an endurance above 65,535 is never held, by EveryStepKeepsTheCounters). -/
def Obligations.DoorAndFuelListsAreOrdered : Prop :=
  (∀ s : State, Rising s.bays →
     (∀ x, x ∈ s.doorList ↔
       x ∈ s.bays ∧ (x.2.door.state = .ajar ∧ s.claimed x.1 = false ∨ x.2.door.state = .switchFault)) ∧
     s.doorList.Pairwise fun x y =>
       x.2.door.listEntry.getD 0 < y.2.door.listEntry.getD 0 ∨
         x.2.door.listEntry.getD 0 = y.2.door.listEntry.getD 0 ∧ x.1 < y.1) ∧
  (∀ s : State, Rising s.bays →
     (∀ p ∈ s.bays, p.2.fuel.endurance.getD 0 ≤ 65535) →
     (∀ x, x ∈ s.fuelList ↔ x ∈ s.bays ∧ (x.2.fuel.state = .critical ∨ x.2.fuel.state = .low ∨ x.2.fuel.short = true ∨
       x.2.defrost.fuelBlock = true)) ∧
     s.fuelList.Pairwise fun x y =>
       x.2.fuel.state = .critical ∧ y.2.fuel.state ≠ .critical ∨
       (x.2.fuel.state = .critical ↔ y.2.fuel.state = .critical) ∧
         ((∃ e, x.2.fuel.endurance = some e ∧ ∀ d, y.2.fuel.endurance = some d → e < d) ∨
           x.2.fuel.endurance = y.2.fuel.endurance ∧ x.1 < y.1))

/-- DOOR LIST, FUEL LIST and QUEUE READ answer DONE with the list's length, the number of entries, and the entries from the
start index, at most 16; nothing of the yard changes, and FUEL LIST moves the counter of the free values on (log 8) and flags
a last-reply time without a clock both present and unset (log 35). -/
def Obligations.ListsAreReadInPagesOfSixteen : Prop :=
  ∀ (s : State) (i : Byte),
    (∀ p, s.Takes p → p = .office ∨ p = .patrol → exec (.doorList p [i]) s = .next ((s.frameTaken p).answer p (some 11) ⟨.done,
      [byteOf s.doorList.length, byteOf (min 16 (s.doorList.length - i.toNat))] ++
      ((s.doorList.drop i.toNat).take 16).flatMap fun x =>
        [byteOf x.1, byteOf x.2.door.state.code] ++ be2 (min (s.now / 40 - x.2.door.listEntry.getD (s.now / 40)) 65535) ++
        be2 x.2.door.openRun ++
        [if x.2.door.beaconWanted then 1 else 0, byteOf (beaconConfirmedCode x.2.door.beaconConfirmed),
         byteOf x.2.loop.presence.code, if s.claimed x.1 then 1 else 0]⟩)) ∧
    (∀ p, s.Takes p → p = .office ∨ p = .fuel → ∃ entries : List (List Byte),
      exec (.fuelList p [i]) s = .next ({ s.frameTaken p with freeCount := s.freeCount + 1 }.answer p (some 13) ⟨.done,
        [byteOf s.fuelList.length, byteOf (min 16 (s.fuelList.length - i.toNat))] ++ entries.flatten⟩) ∧
      entries.length = min 16 (s.fuelList.length - i.toNat) ∧
      ∀ k x y, entries[k]? = some y → s.fuelList[i.toNat + k]? = some x →
        y.length = 10 ∧ y.take 2 = [byteOf x.1, byteOf x.2.fuel.state.code] ∧
        (∀ e, x.2.fuel.endurance = some e → (y.drop 2).take 2 = be2 e) ∧
        y[4]? = some (byteOf (x.2.readings.fuelLevel.getD 255)) ∧
        y[5]? = some (byteOf ((if x.2.fuel.endurance.isSome then 1 else 0) + (if x.2.fuel.estimated then 2 else 0) +
          (if x.2.fuel.saturated then 4 else 0) + (if x.2.fuel.short then 8 else 0) +
          (if x.2.defrost.fuelBlock then 16 else 0) +
          match x.2.readings.lastReply with | .absent => 0 | .minute _ => 32 | .clockUnset => 96)) ∧
        (∀ m, x.2.readings.lastReply = .minute m → y.drop 6 = be4 m)) ∧
    (∀ entries : List (List Byte), s.Takes .office → entries = (((s.queue.drop i.toNat).take 16).map fun q =>
        match s.bay? q.bay with
        | none => [byteOf q.bay] ++ be4 q.entryTime ++ [0, 0, 0]
        | some r => [byteOf q.bay] ++ be4 q.entryTime ++ [byteOf r.frost.urgency.code,
            if r.readings.sourceInUse = .engine then 2 else 1,
            byteOf ((if s.grantable q.bay r then 1 else 0) + (if r.defrost.fuelBlock then 2 else 0) +
              (if r.defrost.waitingReported then 4 else 0))]) →
      exec (.queueRead .office [i]) s = .next ((s.frameTaken .office).answer .office (some 18) ⟨.done,
        [byteOf s.queue.length, byteOf (min 16 (s.queue.length - i.toNat))] ++ entries.flatten⟩))

/-! ## Claims -/

/-- CLAIM is refused by the first check that fails, in the order of R129, and a refusal changes nothing. -/
def Obligations.ClaimIsRefusedByTheFirstFailingCheck : Prop :=
  ∀ (s : State) (p : Port) (b lease : Byte), s.Takes p → s.AddressesOk →
    (240 < lease.toNat → exec (.claim p [b, lease]) s = .next ((s.frameTaken p).answer p (some 4) ⟨.invalid, []⟩)) ∧
    (lease.toNat ≤ 240 →
      (b.toNat = 0 ∨ 127 < b.toNat ∨ s.planned b.toNat = false ∨ b.toNat ∈ s.marked →
        exec (.claim p [b, lease]) s = .next ((s.frameTaken p).answer p (some 4) ⟨.noSuchBay, []⟩)) ∧
      (s.planned b.toNat = true → b.toNat ∉ s.marked →
        (∀ c, s.claimOf b.toNat = some c → exec (.claim p [b, lease]) s =
          .next ((s.frameTaken p).answer p (some 4) ⟨.held, [byteOf (portCode c.holder), byteOf (claimKindCode c.holder)]⟩)) ∧
        (s.claimOf b.toNat = none → 12 ≤ (s.port p).claimCount →
          exec (.claim p [b, lease]) s = .next ((s.frameTaken p).answer p (some 4) ⟨.portLimit, []⟩)) ∧
        (s.claimOf b.toNat = none → (s.port p).claimCount < 12 → 32 ≤ s.claims.length →
          exec (.claim p [b, lease]) s = .next ((s.frameTaken p).answer p (some 4) ⟨.tableFull, []⟩))))

/-- A CLAIM that passes every check adds the record with its lease and answers with kind, length and count; a GRANTED bay's
grant is withdrawn, an OPEN_TIMING door becomes attended, and a bay that had no watch cause is appended to the watch list where
there is room; other bays change at most by a grant. -/
def Obligations.ClaimAddsTheRecordAndItsEffects : Prop :=
  ∀ (s : State) (p : Port) (b lease : Byte) (r : Bay) (minutes : Nat), s.Takes p → s.bay? b.toNat = some r → lease.toNat ≤ 240 →
    b.toNat ∉ s.marked → s.claimOf b.toNat = none → (s.port p).claimCount < 12 → s.claims.length < 32 →
    minutes = (if lease = 0 then r.settings.defaultLease else lease.toNat) →
    ∃ (t : State) (r' : Bay), exec (.claim p [b, lease]) s = .next (t.answer p (some 4)
        ⟨.done, [byteOf (portCode p), byteOf minutes, byteOf ((s.port p).claimCount + 1)]⟩) ∧
      t.claims = putKey b.toNat { holder := p, leaseMinutes := minutes, leaseEnd := s.now / 40 + 60 * minutes,
                                  fillStart := none } s.claims ∧
      (t.port p).claimCount = (s.port p).claimCount + 1 ∧ (∀ q, q ≠ p → (t.port q).claimCount = (s.port q).claimCount) ∧
      Calm (s.frameTaken p) t ∧ t.bay? b.toNat = some r' ∧ (b.toNat ∈ t.watch ∨ 4 ≤ t.watch.length) ∧
      (r.door.state = .openTiming → r'.door = { r.door with state := .openAttended, graceEnd := none }) ∧
      (r.door.state ≠ .openTiming → r'.door = r.door) ∧
      (r.defrost.state ≠ .granted → WatchEntered s t b.toNat ∧ r'.defrost.state = r.defrost.state ∧ r'.defrost.want = r.defrost.want ∧
        r'.defrost.slot = r.defrost.slot ∧ r'.defrost.timer = r.defrost.timer) ∧
      (r.defrost.state = .granted → r'.defrost.want = none ∧ r'.defrost.slot = false ∧ r'.defrost.timer = .absent ∧
        r'.defrost.state = (if r.frost.urgency = .none then .clear else .queued) ∧
        (r.frost.urgency ≠ .none → ∀ e j, r.defrost.kept = some (e, j) →
          { bay := b.toNat, entryTime := e, join := j } ∈ t.queue)) ∧
      r'.frost = r.frost ∧ r'.readings = r.readings ∧ r'.fuel = r.fuel ∧ OthersGrantOnly b.toNat s t

/-- CLAIM RENEW: INVALID, NO_CLAIM, or the lease restarted from the present reading with the length asked for; holder, start
level and everything else stand. -/
def Obligations.ClaimRenewRestartsTheLease : Prop :=
  ∀ (s : State) (p : Port) (b lease : Byte), s.Takes p →
    (240 < lease.toNat → exec (.claimRenew p [b, lease]) s = .next ((s.frameTaken p).answer p (some 6) ⟨.invalid, []⟩)) ∧
    (lease.toNat ≤ 240 → (∀ c, s.claimOf b.toNat = some c → c.holder ≠ p) →
      exec (.claimRenew p [b, lease]) s = .next ((s.frameTaken p).answer p (some 6) ⟨.noClaim, []⟩)) ∧
    ∀ c r minutes, lease.toNat ≤ 240 → s.claimOf b.toNat = some c → c.holder = p → s.bay? b.toNat = some r →
      minutes = (if lease = 0 then r.settings.defaultLease else lease.toNat) →
      exec (.claimRenew p [b, lease]) s =
        .next ({ s.frameTaken p with
          claims := mapKey b.toNat (fun c => { c with leaseMinutes := minutes, leaseEnd := s.now / 40 + 60 * minutes })
            s.claims }.answer p (some 6) ⟨.done, [byteOf (portCode p), byteOf minutes]⟩)

/-- A claim that ends, by CLAIM RELEASE from its holder or by its lease: the record and the port's count go, an OPEN_ATTENDED door
starts a fresh grace (its end by log 39), a FUEL claim reports its fill, an expiry reports itself, a bay left without a watch
cause leaves the watch list, before the run that follows on a QUEUED bay; other bays change at most by a grant. A release by
another port, or of a bay without a claim, is NO_CLAIM. -/
def Obligations.ClaimEndsByReleaseOrLease : Prop :=
 (∀ (s : State) (p : Port) (b : Byte), s.Takes p → s.claimOf b.toNat = none →
    exec (.claimRelease p [b]) s = .next ((s.frameTaken p).answer p (some 5) ⟨.noClaim, []⟩)) ∧
  ∀ (s : State) (b : Byte) (c : Claim) (r : Bay) (litres : Option Nat), s.claimOf b.toNat = some c → s.bay? b.toNat = some r →
    litres = (match c.fillStart, r.readings.fuelLevel with
      | some start, some stop => some (if start < stop then (stop - start) * r.settings.capacity / 100 else 0)
      | _, _ => none) →
    (s.Takes c.holder → ∃ t : State, exec (.claimRelease c.holder [b]) s =
        .next (t.answer c.holder (some 5) ⟨.done, byteOf (portCode c.holder) ::
          if c.holder = .fuel then be2 (litres.getD 65535) ++
            [byteOf (c.fillStart.getD 255), byteOf (r.readings.fuelLevel.getD 255)] else []⟩) ∧
        ClaimEnded s t b.toNat c r ∧ Calm (s.frameTaken c.holder) t) ∧
      (c.leaseEnd ≤ s.now / 40 → ∃ t : State, exec (.leaseExpiry b.toNat) s = .next t ∧ ClaimEnded s t b.toNat c r ∧
        Calm s t ∧ t.reported c.holder .claimExpired b.toNat) ∧
      ∀ p, s.Takes p → p ≠ c.holder → exec (.claimRelease p [b]) s = .next ((s.frameTaken p).answer p (some 5) ⟨.noClaim, []⟩)

/-- Every step keeps the claim table: one record a bay, at most 32, at most 12 a port, the ports' counts those of their
records, every claimed bay in the committed plan. -/
def Obligations.EveryStepKeepsTheClaimTable : Prop :=
  ∀ s t : State, s.ClaimsOk → Rising s.bays → Rising s.staged.bays → step s = .next t → t.ClaimsOk

/-! ## Shedding, silence and the loop mode -/

/-- The SHED line takes a level: the filter timer starts against the filtered level (500 ms in the steps of log 1), or stops at a
return to it. When it runs out the filtered level is the line's, taken as an assertion or a release by the shed state; an
assertion in NORMAL with no slot held enters SHED within the same command (log 22). The dwell runs out in SHED: elapsed, or with
a release seen RESTART with the gap started; the gap runs out: NORMAL with SHED_LEFT; a gap of 0 passes straight to NORMAL. In
RESTART and NORMAL the dwell is absent and the release-seen mark clear (log 22); the ends of dwell and gap are by log 39.
Whatever frees the last slot in DRAINING enters SHED with SHED_ENTERED, a fresh dwell and no release seen. -/
def Obligations.ShedLineFilterDwellAndGapMoveTheShedState : Prop :=
  (∀ (s : State) (level : Bool), level ≠ s.shedLine →
     exec (.shedLineChange level) s =
       .next { s with shedLine := level, filterEnd := if level = s.filtered then none else some (s.now + 500 / 25) }) ∧
  (∀ (s u : State) (e : Nat), s.filterEnd = some e → e ≤ s.now → u = { s with filtered := s.shedLine, filterEnd := none } →
     ∃ t : State, exec .shedFilterExpiry s = .next t ∧
       (s.shedLine = true →
         (s.shed = .normal → Defrosts u t ∧ t.slotHolders = s.slotHolders ∧ t.raiseCounter = s.raiseCounter ∧
           (s.slotHolders ≠ 0 → t.shed = .draining) ∧
           (s.slotHolders = 0 → t.shed = .shed ∧ t.releaseSeen = false ∧ t.reported .office .shedEntered 0 ∧
             t.dwell = if s.yard.only.shedDwell = 0 then .spent else .running (s.now + s.yard.only.shedDwell * 40))) ∧
         (s.shed = .draining → t = u) ∧ (s.shed = .shed → t = { u with releaseSeen := false }) ∧
         (s.shed = .restart → t = { u with
           shed := .shed, gapEnd := none, releaseSeen := false
           dwell := if s.yard.only.shedDwell = 0 then .spent else .running (s.now + s.yard.only.shedDwell * 40) })) ∧
       (s.shedLine = false →
         (s.shed = .normal → t = u) ∧ (s.shed = .draining → t.shed = .normal ∧ Defrosts u t) ∧
         (s.shed = .shed → s.dwell ≠ .spent → t = { u with releaseSeen := true }) ∧
         (s.shed = .shed → s.dwell = .spent → s.yard.only.restartGap ≠ 0 → t = { u with
           shed := .restart, dwell := .absent, releaseSeen := false
           gapEnd := some (s.now + s.yard.only.restartGap * 40) }) ∧
         (s.shed = .shed → s.dwell = .spent → s.yard.only.restartGap = 0 → t.shed = .normal ∧ t.dwell = .absent ∧
           t.gapEnd = none ∧ t.releaseSeen = false ∧ t.reported .office .shedLeft 0 ∧ Defrosts u t) ∧
         (s.shed = .restart → t = u))) ∧
  (∀ (c : Instr) (s t : State), c ∉ [Instr.shedFilterExpiry, .fullReset] → exec c s = .next t → s.shed = .draining →
     s.slotHolders ≠ 0 → t.slotHolders = 0 → t.shed = .shed ∧ t.releaseSeen = false ∧ t.reported .office .shedEntered 0 ∧
       (t.yard = s.yard →
         t.dwell = if s.yard.only.shedDwell = 0 then .spent else .running (s.now + s.yard.only.shedDwell * 40))) ∧
  (∀ (s : State) (e : Nat), e ≤ s.now →
    (s.shed = .shed → s.dwell = .running e → s.releaseSeen = false →
      exec .dwellTimerExpiry s = .next { s with dwell := .spent }) ∧
    (s.shed = .shed → s.dwell = .running e → s.releaseSeen = true → s.yard.only.restartGap ≠ 0 →
      exec .dwellTimerExpiry s = .next { s with
        shed := .restart, dwell := .absent, releaseSeen := false, gapEnd := some (s.now + s.yard.only.restartGap * 40) }) ∧
    (s.shed = .shed → s.dwell = .running e → s.releaseSeen = true → s.yard.only.restartGap = 0 →
      ∃ t : State, exec .dwellTimerExpiry s = .next t ∧ t.shed = .normal ∧ t.dwell = .absent ∧ t.gapEnd = none ∧
        t.reported .office .shedLeft 0 ∧ Defrosts s t) ∧
    (s.gapEnd = some e →
      ∃ t : State, exec .restartGapExpiry s = .next t ∧ t.shed = .normal ∧ t.dwell = .absent ∧ t.gapEnd = none ∧
        t.reported .office .shedLeft 0 ∧ Defrosts s t))

/-- The silence timer runs out: while SILENT only the timer goes; in WATCHING the mode is saved and set by the action (HALT stays
HALT), the state is SILENT, OFFICE_SILENT goes to all three ports; claims and plan stand where no commit is applied by the entry
to HALT, and the change of mode is then taken by the Scheduler, FAU and the loop, in the order of log 13, so that a GRANTED bay
at NONE whose level rises as FALLBACK is left for HALT joins the queue at the tail (drip times by logs 15 and 39, the want of an
abandoned record gone by log 16). Where the action sets the mode in force, bays, slot and round position stand and no selection
run is made (log 9); SILENT stands whatever limit a commit applied within the expiry sets (log 29). -/
def Obligations.SilenceTimerSetsTheActionsMode : Prop :=
  ∀ (s : State) (x : SilenceTimer), s.silenceTimer = some x → x.deadline ≤ s.now →
    (s.silence = .silent → exec .silenceTimerExpiry s = .next { s with silenceTimer := none }) ∧
    (s.silence = .watching → ∃ t : State, exec .silenceTimerExpiry s = .next t ∧
      t.silence = .silent ∧ t.silenceTimer = none ∧ t.savedMode = some s.mode ∧
      t.mode = (if s.mode = .halt then .halt else if s.yard.only.silenceAction = 0 then .fallback else .halt) ∧
      (∀ p, t.reported p .officeSilent 0) ∧ t.clock = s.clock ∧ t.mirrors = s.mirrors ∧ t.staged = s.staged ∧
      (s.commitPending = false ∨ s.yard.only.silenceAction = 0 ∨ s.mode = .halt ∨ s.slot.isSome = true →
        t.claims = s.claims ∧ t.yard = s.yard ∧ t.rows = s.rows ∧ t.generation = s.generation ∧
        BaysRel FrostOnly s.bays t.bays ∧ (t.mode ≠ s.mode → ModeTaken s t) ∧
        (t.mode = s.mode → t.bays = s.bays ∧ t.slot = s.slot ∧ t.nextMain = s.nextMain)))

/-- MODE SET: INVALID, WRONG_MODE while SILENT, the mode in force, which changes nothing in the Scheduler either (log 9), or the
change, after which no grant stands in LISTEN or HALT and no RUNNING or STOPPING record in HALT. RESUME: WRONG_STATE unless
SILENT, WRONG_MODE under RESET_ONLY, else the saved mode restored and SILENT ended, with claims and plan as they stand where no
commit is applied by an entry to HALT. Where none is applied, the change is taken so: levels recomputed where FALLBACK is entered
or left, with the joins and leaves that follow, after the withdrawals, so that a GRANTED bay at NONE whose level rises joins at
the tail (the order of log 13, the model's choice); grants withdrawn to their kept place in LISTEN and HALT; RUNNING and STOPPING
made UNKNOWN in HALT with their kind, slot, timer and want, or abandoned with the timer spent (logs 15, 16 and 39); rounds stopped
in HALT and begun at the lowest address on leaving it, the slot in progress running to its end (log 14) and the round position
staying at the bay of the slot begun (log 26). A commit that an entry to HALT applies is by logs 27 and 45. -/
def Obligations.ModeSetAndResumeChangeTheMode : Prop :=
  (∀ (s : State) (v : Byte), s.Takes .office →
     (v = 0 ∨ 4 < v.toNat → exec (.modeSet .office [v]) s = .next ((s.frameTaken .office).answer .office (some 16) ⟨.invalid, []⟩)) ∧
     ∀ m : LoopMode, v = byteOf m.code →
       (s.silence = .silent →
         exec (.modeSet .office [v]) s = .next ((s.frameTaken .office).answer .office (some 16) ⟨.wrongMode, []⟩)) ∧
       (s.silence ≠ .silent → s.mode = m →
         exec (.modeSet .office [v]) s = .next ((s.frameTaken .office).answer .office (some 16) ⟨.done, [v, v]⟩)) ∧
       (s.silence ≠ .silent → s.mode ≠ m → ∃ t : State, exec (.modeSet .office [v]) s =
           .next (t.answer .office (some 16) ⟨.done, [byteOf s.mode.code, v]⟩) ∧ t.mode = m ∧
         (m = .listen ∨ m = .halt → ∀ b, t.inDefrost b .granted = false) ∧
         (m = .halt → ∀ b, t.inDefrost b .running = false ∧ t.inDefrost b .stopping = false) ∧
         (m ≠ .halt → s.mode ≠ .halt → Frosts { s.frameTaken .office with mode := m } t) ∧
         (s.commitPending = false ∨ m ≠ .halt ∨ s.slot.isSome = true → ModeTaken s t) ∧
         t.clock = s.clock ∧ t.mirrors = s.mirrors ∧ t.savedMode = s.savedMode)) ∧
  (∀ s : State, s.Takes .office →
     (s.silence ≠ .silent →
       exec (.resume .office []) s = .next ((s.frameTaken .office).answer .office (some 19) ⟨.wrongState, []⟩)) ∧
     (s.silence = .silent → s.yard.only.recovery ≠ 0 →
       exec (.resume .office []) s = .next ((s.frameTaken .office).answer .office (some 19) ⟨.wrongMode, []⟩)) ∧
     (s.silence = .silent → s.yard.only.recovery = 0 → ∀ m, s.savedMode = some m →
       ∃ t : State, exec (.resume .office []) s = .next (t.answer .office (some 19) ⟨.done, [byteOf m.code]⟩) ∧
         t.mode = m ∧ t.savedMode = none ∧ t.clock = s.clock ∧
         (s.commitPending = true → m = .halt → s.mode ≠ .halt → s.slot = none →
           PlanApplied s t ∧ SilenceEnded (s.frameTaken .office) t) ∧
         (s.commitPending = false ∨ m ≠ .halt ∨ s.mode = .halt ∨ s.slot.isSome = true →
           t.silence = (if s.yard.only.silenceLimit = 0 then .off else .watching) ∧
           t.silenceTimer = (s.frameTaken .office).silenceTimer ∧ t.yard = s.yard ∧ t.claims = s.claims ∧
           BaysRel PlanPart s.bays t.bays ∧ (m ≠ s.mode → ModeTaken s t) ∧
           (m = s.mode → t.bays = s.bays ∧ t.slot = s.slot ∧ t.nextMain = s.nextMain))))

/-- Requests from the Fuel and Patrol ports never change the loop mode, the slot in progress, the plans and their commit, the
clock, the mirror rules, the filtered SHED level or the silence logic. -/
def Obligations.OnlyTheOfficeSteersTheYard : Prop :=
  ∀ (s t : State) (r : Request) (p : Port) (args : List Byte), p ≠ .office → exec (r.toInstr p args) s = .next t →
    (∃ n, Calm { s with freeCount := n } t) ∧ BaysRel PlanPart s.bays t.bays ∧
    (t.port .office).holder = (s.port .office).holder ∧ (t.port .office).number = (s.port .office).number ∧
    (t.port .office).mask = (s.port .office).mask ∧ (t.port .office).classCount = (s.port .office).classCount
end

