-- ==== Sys2Proof/Laws/Keys.lean ====
section
/-!
SUPPORT. Lists kept by rising key: what reading finds after a change, and that every change keeps the canonical form.
-/
namespace Sys2Proof.Machine

variable {α : Type}

/-! ## Reading after a change -/

@[simp] theorem findKey_nil (k : Nat) : findKey k ([] : List (Nat × α)) = none := rfl

theorem findKey_cons (k j : Nat) (v : α) (l : List (Nat × α)) :
    findKey k ((j, v) :: l) = if j = k then some v else findKey k l := rfl

@[simp] theorem findKey_mapKey (k c : Nat) (f : α → α) (l : List (Nat × α)) :
    findKey c (mapKey k f l) = if c = k then (findKey k l).map f else findKey c l := by
  induction l with
  | nil => simp [mapKey]
  | cons p l ih =>
    obtain ⟨j, v⟩ := p
    have ih' : findKey c (List.map (fun p => if p.1 = k then (p.1, f p.2) else p) l)
        = if c = k then (findKey k l).map f else findKey c l := ih
    by_cases hj : j = k <;> by_cases hc : c = k <;> by_cases hjc : j = c <;>
      simp_all [mapKey, findKey_cons]

@[simp] theorem findKey_putKey (k c : Nat) (v : α) (l : List (Nat × α)) :
    findKey c (putKey k v l) = if c = k then some v else findKey c l := by
  induction l with
  | nil => by_cases h : k = c <;> simp [putKey, findKey_cons, h, eq_comm]
  | cons p l ih =>
    obtain ⟨j, w⟩ := p
    by_cases h1 : k < j
    · simp only [putKey, if_pos h1, findKey_cons]
      by_cases h : c = k
      · simp [h]
      · simp [h, Ne.symm h]
    · by_cases h2 : k = j
      · subst h2
        simp only [putKey, if_neg h1, if_true, findKey_cons]
        by_cases h : c = k
        · simp [h]
        · simp [h, Ne.symm h]
      · by_cases h3 : j = c
        · subst h3
          simp [putKey, findKey_cons, h1, h2, Ne.symm h2]
        · simp [putKey, findKey_cons, h1, h2, h3, ih]

@[simp] theorem findKey_dropKey (k c : Nat) (l : List (Nat × α)) :
    findKey c (dropKey k l) = if c = k then none else findKey c l := by
  induction l with
  | nil => simp [dropKey]
  | cons p l ih =>
    obtain ⟨j, v⟩ := p
    have ih' : findKey c (List.filter (fun p => decide (p.1 ≠ k)) l) = if c = k then none else findKey c l := ih
    by_cases hj : j = k
    · subst hj
      by_cases hc : c = j
      · simpa [dropKey, hc] using (by simpa [hc] using ih')
      · simpa [dropKey, findKey_cons, hc, Ne.symm hc] using (by simpa [hc] using ih')
    · by_cases hc : c = k
      · subst hc
        simpa [dropKey, findKey_cons, hj] using (by simpa using ih')
      · by_cases hjc : j = c <;> simp_all [dropKey, findKey_cons]

theorem findKey_isSome_iff (k : Nat) (l : List (Nat × α)) : (findKey k l).isSome ↔ k ∈ keysOf l := by
  induction l with
  | nil => simp [keysOf]
  | cons p l ih =>
    obtain ⟨j, v⟩ := p
    by_cases h : j = k
    · simp [findKey_cons, keysOf, h]
    · simp only [findKey_cons, h, if_false, ih]
      simp [keysOf, Ne.symm h]

theorem findKey_mem {k : Nat} {v : α} {l : List (Nat × α)} (h : findKey k l = some v) : (k, v) ∈ l := by
  induction l with
  | nil => simp at h
  | cons p l ih =>
    obtain ⟨j, w⟩ := p
    rw [findKey_cons] at h
    split at h
    · next e => cases h; simp [e]
    · exact List.mem_cons_of_mem _ (ih h)

/-! ## Keys after a change -/

@[simp] theorem keysOf_mapKey (k : Nat) (f : α → α) (l : List (Nat × α)) : keysOf (mapKey k f l) = keysOf l := by
  simp only [keysOf, mapKey, List.map_map]
  congr 1
  funext p
  simp only [Function.comp]
  split <;> rfl

theorem mem_keysOf_putKey (k : Nat) (v : α) (l : List (Nat × α)) (c : Nat) :
    c ∈ keysOf (putKey k v l) ↔ c = k ∨ c ∈ keysOf l := by
  rw [← findKey_isSome_iff, ← findKey_isSome_iff, findKey_putKey]
  split <;> simp [*]

theorem rising_mapKey {l : List (Nat × α)} (k : Nat) (f : α → α) (h : Rising l) : Rising (mapKey k f l) := by
  simpa [Rising] using h

theorem rising_dropKey {l : List (Nat × α)} (k : Nat) (h : Rising l) : Rising (dropKey k l) :=
  List.Pairwise.sublist (List.Sublist.map Prod.fst List.filter_sublist) h

theorem rising_putKey {l : List (Nat × α)} (k : Nat) (v : α) (h : Rising l) : Rising (putKey k v l) := by
  induction l with
  | nil => simp [putKey, Rising, keysOf]
  | cons p l ih =>
    obtain ⟨j, w⟩ := p
    simp only [Rising, keysOf, List.map_cons, List.pairwise_cons] at h
    by_cases h1 : k < j
    · simp only [putKey, h1, if_true, Rising, keysOf, List.map_cons, List.pairwise_cons]
      refine ⟨fun c hc => ?_, h⟩
      rcases List.mem_cons.1 hc with rfl | hc
      · exact h1
      · exact lt_trans h1 (h.1 c hc)
    · by_cases h2 : k = j
      · subst h2
        simpa [putKey, Rising, keysOf] using h
      · simp only [putKey, h1, h2, if_false, Rising, keysOf, List.map_cons, List.pairwise_cons]
        refine ⟨fun c hc => ?_, ih h.2⟩
        rcases (mem_keysOf_putKey k v l c).1 hc with rfl | hc
        · omega
        · exact h.1 c hc

/-- In the canonical form an entry of the list is what its key finds. -/
theorem findKey_of_mem {k : Nat} {v : α} {l : List (Nat × α)} (h : Rising l) (hm : (k, v) ∈ l) :
    findKey k l = some v := by
  induction l with
  | nil => simp at hm
  | cons p l ih =>
    obtain ⟨j, w⟩ := p
    simp only [Rising, keysOf, List.map_cons, List.pairwise_cons] at h
    rcases List.mem_cons.1 hm with e | hm
    · cases e; simp [findKey_cons]
    · have hk : j < k := h.1 k (List.mem_map.2 ⟨(k, v), hm, rfl⟩)
      rw [findKey_cons, if_neg (by omega)]
      exact ih h.2 hm

/-- Two lists in the canonical form with the same content at every key are equal. -/
theorem rising_ext {l m : List (Nat × α)} (hl : Rising l) (hm : Rising m)
    (h : ∀ k, findKey k l = findKey k m) : l = m := by
  induction l generalizing m with
  | nil =>
    cases m with
    | nil => rfl
    | cons p m => obtain ⟨j, v⟩ := p; simpa [findKey_cons] using h j
  | cons p l ih =>
    obtain ⟨j, v⟩ := p
    cases m with
    | nil => simpa [findKey_cons] using h j
    | cons q m =>
      obtain ⟨i, w⟩ := q
      simp only [Rising, keysOf, List.map_cons, List.pairwise_cons] at hl hm
      have hij : j = i := by
        by_contra hne
        rcases Nat.lt_or_gt_of_ne hne with hlt | hlt
        · have := h j
          rw [findKey_cons, if_pos rfl, findKey_cons, if_neg (by omega)] at this
          have hmem := hm.1 j ((findKey_isSome_iff j m).1 (by simp [← this]))
          omega
        · have := h i
          rw [findKey_cons, if_neg (by omega), findKey_cons, if_pos rfl] at this
          have hmem := hl.1 i ((findKey_isSome_iff i l).1 (by simp [this]))
          omega
      subst hij
      have hv : v = w := by simpa [findKey_cons] using h j
      subst hv
      congr 1
      refine ih hl.2 hm.2 fun k => ?_
      by_cases hk : j = k
      · subst hk
        have e1 : findKey j l = none := by
          by_contra hc
          have := hl.1 j ((findKey_isSome_iff j l).1 (Option.isSome_iff_ne_none.2 hc))
          omega
        have e2 : findKey j m = none := by
          by_contra hc
          have := hm.1 j ((findKey_isSome_iff j m).1 (Option.isSome_iff_ne_none.2 hc))
          omega
        rw [e1, e2]
      · simpa [findKey_cons, hk] using h k

end Sys2Proof.Machine
end

