-- ==== Sys2Proof/Laws/State.lean ====
section
/-!
SUPPORT. What each field reads after each base update of State, so that no later proof unfolds a record update: a bay's
record changed, a port's record changed, the free-value counter advanced, a slot begun.
-/
namespace Sys2Proof.Machine

variable (s : State) (b c : Nat) (p q : Port)

/-! ## A bay's record changed -/

@[simp] theorem modBay_now (f : Bay → Bay) : (s.modBay b f).now = s.now := rfl
@[simp] theorem modBay_pending (f : Bay → Bay) : (s.modBay b f).pending = s.pending := rfl
@[simp] theorem modBay_freeCount (f : Bay → Bay) : (s.modBay b f).freeCount = s.freeCount := rfl
@[simp] theorem modBay_mode (f : Bay → Bay) : (s.modBay b f).mode = s.mode := rfl
@[simp] theorem modBay_nextMain (f : Bay → Bay) : (s.modBay b f).nextMain = s.nextMain := rfl
@[simp] theorem modBay_slot (f : Bay → Bay) : (s.modBay b f).slot = s.slot := rfl
@[simp] theorem modBay_roundEnding (f : Bay → Bay) : (s.modBay b f).roundEnding = s.roundEnding := rfl
@[simp] theorem modBay_watch (f : Bay → Bay) : (s.modBay b f).watch = s.watch := rfl
@[simp] theorem modBay_cursor (f : Bay → Bay) : (s.modBay b f).cursor = s.cursor := rfl
@[simp] theorem modBay_yard (f : Bay → Bay) : (s.modBay b f).yard = s.yard := rfl
@[simp] theorem modBay_rows (f : Bay → Bay) : (s.modBay b f).rows = s.rows := rfl
@[simp] theorem modBay_bays (f : Bay → Bay) : (s.modBay b f).bays = mapKey b f s.bays := rfl
@[simp] theorem modBay_staged (f : Bay → Bay) : (s.modBay b f).staged = s.staged := rfl
@[simp] theorem modBay_commitPending (f : Bay → Bay) : (s.modBay b f).commitPending = s.commitPending := rfl
@[simp] theorem modBay_marked (f : Bay → Bay) : (s.modBay b f).marked = s.marked := rfl
@[simp] theorem modBay_generation (f : Bay → Bay) : (s.modBay b f).generation = s.generation := rfl
@[simp] theorem modBay_fallback (f : Bay → Bay) : (s.modBay b f).fallback = s.fallback := rfl
@[simp] theorem modBay_clock (f : Bay → Bay) : (s.modBay b f).clock = s.clock := rfl
@[simp] theorem modBay_minuteEnd (f : Bay → Bay) : (s.modBay b f).minuteEnd = s.minuteEnd := rfl
@[simp] theorem modBay_queue (f : Bay → Bay) : (s.modBay b f).queue = s.queue := rfl
@[simp] theorem modBay_lastJoin (f : Bay → Bay) : (s.modBay b f).lastJoin = s.lastJoin := rfl
@[simp] theorem modBay_slotHolders (f : Bay → Bay) : (s.modBay b f).slotHolders = s.slotHolders := rfl
@[simp] theorem modBay_raiseCounter (f : Bay → Bay) : (s.modBay b f).raiseCounter = s.raiseCounter := rfl
@[simp] theorem modBay_shed (f : Bay → Bay) : (s.modBay b f).shed = s.shed := rfl
@[simp] theorem modBay_shedLine (f : Bay → Bay) : (s.modBay b f).shedLine = s.shedLine := rfl
@[simp] theorem modBay_filtered (f : Bay → Bay) : (s.modBay b f).filtered = s.filtered := rfl
@[simp] theorem modBay_filterEnd (f : Bay → Bay) : (s.modBay b f).filterEnd = s.filterEnd := rfl
@[simp] theorem modBay_releaseSeen (f : Bay → Bay) : (s.modBay b f).releaseSeen = s.releaseSeen := rfl
@[simp] theorem modBay_dwell (f : Bay → Bay) : (s.modBay b f).dwell = s.dwell := rfl
@[simp] theorem modBay_gapEnd (f : Bay → Bay) : (s.modBay b f).gapEnd = s.gapEnd := rfl
@[simp] theorem modBay_silence (f : Bay → Bay) : (s.modBay b f).silence = s.silence := rfl
@[simp] theorem modBay_silenceTimer (f : Bay → Bay) : (s.modBay b f).silenceTimer = s.silenceTimer := rfl
@[simp] theorem modBay_savedMode (f : Bay → Bay) : (s.modBay b f).savedMode = s.savedMode := rfl
@[simp] theorem modBay_claims (f : Bay → Bay) : (s.modBay b f).claims = s.claims := rfl
@[simp] theorem modBay_mirrors (f : Bay → Bay) : (s.modBay b f).mirrors = s.mirrors := rfl
@[simp] theorem modBay_ports (f : Bay → Bay) : (s.modBay b f).ports = s.ports := rfl

@[simp] theorem modBay_bay? (f : Bay → Bay) :
    (s.modBay b f).bay? c = if c = b then (s.bay? b).map f else s.bay? c := findKey_mapKey b c f s.bays

@[simp] theorem modBay_addresses (f : Bay → Bay) : (s.modBay b f).addresses = s.addresses := keysOf_mapKey b f s.bays

@[simp] theorem modBay_claimOf (f : Bay → Bay) : (s.modBay b f).claimOf c = s.claimOf c := rfl

@[simp] theorem modBay_port (f : Bay → Bay) : (s.modBay b f).port q = s.port q := rfl

/-! The field groups of a bay: each update is an update of the bay's record. -/

@[simp] theorem modLoop_eq (f : LoopRec → LoopRec) :
    s.modLoop b f = s.modBay b fun r => { r with loop := f r.loop } := rfl
@[simp] theorem modReadings_eq (f : Readings → Readings) :
    s.modReadings b f = s.modBay b fun r => { r with readings := f r.readings } := rfl
@[simp] theorem modFrost_eq (f : FrostRec → FrostRec) :
    s.modFrost b f = s.modBay b fun r => { r with frost := f r.frost } := rfl
@[simp] theorem modDefrost_eq (f : DefrostRec → DefrostRec) :
    s.modDefrost b f = s.modBay b fun r => { r with defrost := f r.defrost } := rfl
@[simp] theorem modFuel_eq (f : FuelRec → FuelRec) :
    s.modFuel b f = s.modBay b fun r => { r with fuel := f r.fuel } := rfl
@[simp] theorem modDoor_eq (f : DoorRec → DoorRec) :
    s.modDoor b f = s.modBay b fun r => { r with door := f r.door } := rfl

/-! ## A port's record changed -/

@[simp] theorem modPort_now (f : PortState → PortState) : (s.modPort p f).now = s.now := rfl
@[simp] theorem modPort_pending (f : PortState → PortState) : (s.modPort p f).pending = s.pending := rfl
@[simp] theorem modPort_freeCount (f : PortState → PortState) : (s.modPort p f).freeCount = s.freeCount := rfl
@[simp] theorem modPort_mode (f : PortState → PortState) : (s.modPort p f).mode = s.mode := rfl
@[simp] theorem modPort_nextMain (f : PortState → PortState) : (s.modPort p f).nextMain = s.nextMain := rfl
@[simp] theorem modPort_slot (f : PortState → PortState) : (s.modPort p f).slot = s.slot := rfl
@[simp] theorem modPort_roundEnding (f : PortState → PortState) : (s.modPort p f).roundEnding = s.roundEnding := rfl
@[simp] theorem modPort_watch (f : PortState → PortState) : (s.modPort p f).watch = s.watch := rfl
@[simp] theorem modPort_cursor (f : PortState → PortState) : (s.modPort p f).cursor = s.cursor := rfl
@[simp] theorem modPort_yard (f : PortState → PortState) : (s.modPort p f).yard = s.yard := rfl
@[simp] theorem modPort_rows (f : PortState → PortState) : (s.modPort p f).rows = s.rows := rfl
@[simp] theorem modPort_bays (f : PortState → PortState) : (s.modPort p f).bays = s.bays := rfl
@[simp] theorem modPort_staged (f : PortState → PortState) : (s.modPort p f).staged = s.staged := rfl
@[simp] theorem modPort_commitPending (f : PortState → PortState) : (s.modPort p f).commitPending = s.commitPending := rfl
@[simp] theorem modPort_marked (f : PortState → PortState) : (s.modPort p f).marked = s.marked := rfl
@[simp] theorem modPort_generation (f : PortState → PortState) : (s.modPort p f).generation = s.generation := rfl
@[simp] theorem modPort_fallback (f : PortState → PortState) : (s.modPort p f).fallback = s.fallback := rfl
@[simp] theorem modPort_clock (f : PortState → PortState) : (s.modPort p f).clock = s.clock := rfl
@[simp] theorem modPort_minuteEnd (f : PortState → PortState) : (s.modPort p f).minuteEnd = s.minuteEnd := rfl
@[simp] theorem modPort_queue (f : PortState → PortState) : (s.modPort p f).queue = s.queue := rfl
@[simp] theorem modPort_lastJoin (f : PortState → PortState) : (s.modPort p f).lastJoin = s.lastJoin := rfl
@[simp] theorem modPort_slotHolders (f : PortState → PortState) : (s.modPort p f).slotHolders = s.slotHolders := rfl
@[simp] theorem modPort_raiseCounter (f : PortState → PortState) : (s.modPort p f).raiseCounter = s.raiseCounter := rfl
@[simp] theorem modPort_shed (f : PortState → PortState) : (s.modPort p f).shed = s.shed := rfl
@[simp] theorem modPort_shedLine (f : PortState → PortState) : (s.modPort p f).shedLine = s.shedLine := rfl
@[simp] theorem modPort_filtered (f : PortState → PortState) : (s.modPort p f).filtered = s.filtered := rfl
@[simp] theorem modPort_filterEnd (f : PortState → PortState) : (s.modPort p f).filterEnd = s.filterEnd := rfl
@[simp] theorem modPort_releaseSeen (f : PortState → PortState) : (s.modPort p f).releaseSeen = s.releaseSeen := rfl
@[simp] theorem modPort_dwell (f : PortState → PortState) : (s.modPort p f).dwell = s.dwell := rfl
@[simp] theorem modPort_gapEnd (f : PortState → PortState) : (s.modPort p f).gapEnd = s.gapEnd := rfl
@[simp] theorem modPort_silence (f : PortState → PortState) : (s.modPort p f).silence = s.silence := rfl
@[simp] theorem modPort_silenceTimer (f : PortState → PortState) : (s.modPort p f).silenceTimer = s.silenceTimer := rfl
@[simp] theorem modPort_savedMode (f : PortState → PortState) : (s.modPort p f).savedMode = s.savedMode := rfl
@[simp] theorem modPort_claims (f : PortState → PortState) : (s.modPort p f).claims = s.claims := rfl
@[simp] theorem modPort_mirrors (f : PortState → PortState) : (s.modPort p f).mirrors = s.mirrors := rfl
@[simp] theorem modPort_ports (f : PortState → PortState) : (s.modPort p f).ports = s.ports.mod p f := rfl

@[simp] theorem get_mod (x : PerPort PortState) (f : PortState → PortState) :
    (x.mod p f).get q = if q = p then f (x.get p) else x.get q := by
  cases p <;> cases q <;> rfl

@[simp] theorem modPort_port (f : PortState → PortState) :
    (s.modPort p f).port q = if q = p then f (s.port p) else s.port q := get_mod p q s.ports f

@[simp] theorem modPort_bay? (f : PortState → PortState) : (s.modPort p f).bay? b = s.bay? b := rfl

@[simp] theorem modPort_addresses (f : PortState → PortState) : (s.modPort p f).addresses = s.addresses := rfl

@[simp] theorem modPort_claimOf (f : PortState → PortState) : (s.modPort p f).claimOf b = s.claimOf b := rfl

/-! ## The free-value counter advanced -/

@[simp] theorem useFree_now : s.useFree.now = s.now := rfl
@[simp] theorem useFree_pending : s.useFree.pending = s.pending := rfl
@[simp] theorem useFree_freeCount : s.useFree.freeCount = s.freeCount + 1 := rfl
@[simp] theorem useFree_mode : s.useFree.mode = s.mode := rfl
@[simp] theorem useFree_nextMain : s.useFree.nextMain = s.nextMain := rfl
@[simp] theorem useFree_slot : s.useFree.slot = s.slot := rfl
@[simp] theorem useFree_roundEnding : s.useFree.roundEnding = s.roundEnding := rfl
@[simp] theorem useFree_watch : s.useFree.watch = s.watch := rfl
@[simp] theorem useFree_cursor : s.useFree.cursor = s.cursor := rfl
@[simp] theorem useFree_yard : s.useFree.yard = s.yard := rfl
@[simp] theorem useFree_rows : s.useFree.rows = s.rows := rfl
@[simp] theorem useFree_bays : s.useFree.bays = s.bays := rfl
@[simp] theorem useFree_staged : s.useFree.staged = s.staged := rfl
@[simp] theorem useFree_commitPending : s.useFree.commitPending = s.commitPending := rfl
@[simp] theorem useFree_marked : s.useFree.marked = s.marked := rfl
@[simp] theorem useFree_generation : s.useFree.generation = s.generation := rfl
@[simp] theorem useFree_fallback : s.useFree.fallback = s.fallback := rfl
@[simp] theorem useFree_clock : s.useFree.clock = s.clock := rfl
@[simp] theorem useFree_minuteEnd : s.useFree.minuteEnd = s.minuteEnd := rfl
@[simp] theorem useFree_queue : s.useFree.queue = s.queue := rfl
@[simp] theorem useFree_lastJoin : s.useFree.lastJoin = s.lastJoin := rfl
@[simp] theorem useFree_slotHolders : s.useFree.slotHolders = s.slotHolders := rfl
@[simp] theorem useFree_raiseCounter : s.useFree.raiseCounter = s.raiseCounter := rfl
@[simp] theorem useFree_shed : s.useFree.shed = s.shed := rfl
@[simp] theorem useFree_shedLine : s.useFree.shedLine = s.shedLine := rfl
@[simp] theorem useFree_filtered : s.useFree.filtered = s.filtered := rfl
@[simp] theorem useFree_filterEnd : s.useFree.filterEnd = s.filterEnd := rfl
@[simp] theorem useFree_releaseSeen : s.useFree.releaseSeen = s.releaseSeen := rfl
@[simp] theorem useFree_dwell : s.useFree.dwell = s.dwell := rfl
@[simp] theorem useFree_gapEnd : s.useFree.gapEnd = s.gapEnd := rfl
@[simp] theorem useFree_silence : s.useFree.silence = s.silence := rfl
@[simp] theorem useFree_silenceTimer : s.useFree.silenceTimer = s.silenceTimer := rfl
@[simp] theorem useFree_savedMode : s.useFree.savedMode = s.savedMode := rfl
@[simp] theorem useFree_claims : s.useFree.claims = s.claims := rfl
@[simp] theorem useFree_mirrors : s.useFree.mirrors = s.mirrors := rfl
@[simp] theorem useFree_ports : s.useFree.ports = s.ports := rfl

end Sys2Proof.Machine
end

