-- ==== Sys2Proof/Laws/Relations.lean ====
section
/-!
SUPPORT. What the blocks' operations keep, said as relations between the state before and the state after: the settled
fields, the bays under a relation on their records, the ports under postings alone, the watch list's bound.
-/
namespace Sys2Proof.Machine

/-! ## Settled fields -/

theorem Calm.refl (s : State) : Calm s s := by constructor <;> rfl

theorem Calm.trans {s t u : State} (h : Calm s t) (k : Calm t u) : Calm s u where
  now := k.now.trans h.now
  pending := k.pending.trans h.pending
  freeCount := k.freeCount.trans h.freeCount
  mode := k.mode.trans h.mode
  nextMain := k.nextMain.trans h.nextMain
  slot := k.slot.trans h.slot
  roundEnding := k.roundEnding.trans h.roundEnding
  yard := k.yard.trans h.yard
  rows := k.rows.trans h.rows
  staged := k.staged.trans h.staged
  commitPending := k.commitPending.trans h.commitPending
  marked := k.marked.trans h.marked
  generation := k.generation.trans h.generation
  fallback := k.fallback.trans h.fallback
  clock := k.clock.trans h.clock
  minuteEnd := k.minuteEnd.trans h.minuteEnd
  shedLine := k.shedLine.trans h.shedLine
  filtered := k.filtered.trans h.filtered
  filterEnd := k.filterEnd.trans h.filterEnd
  silence := k.silence.trans h.silence
  silenceTimer := k.silenceTimer.trans h.silenceTimer
  savedMode := k.savedMode.trans h.savedMode
  mirrors := k.mirrors.trans h.mirrors

/-! ## Ports under postings -/

theorem Posts.trans {x y z : PerPort PortState} (h : Posts x y) (k : Posts y z) : Posts x z := by
  induction k with
  | refl => exact h
  | take p e _ he ih => exact ih.take p e he

/-! ## Bay records -/

theorem BaysRel.trans {R : Bay → Bay → Prop} (ht : ∀ a b c, R a b → R b c → R a c) {x y z : List (Nat × Bay)}
    (h : BaysRel R x y) (k : BaysRel R y z) : BaysRel R x z := by
  refine ⟨k.1.trans h.1, fun b r hr => ?_⟩
  obtain ⟨r', hr', h1⟩ := h.2 b r hr
  obtain ⟨r'', hr'', h2⟩ := k.2 b r' hr'
  exact ⟨r'', hr'', ht _ _ _ h1 h2⟩

theorem BaysRel.mono {R S : Bay → Bay → Prop} (hi : ∀ a b, R a b → S a b) {x y : List (Nat × Bay)}
    (h : BaysRel R x y) : BaysRel S x y :=
  ⟨h.1, fun b r hr => let ⟨r', h1, h2⟩ := h.2 b r hr; ⟨r', h1, hi _ _ h2⟩⟩

theorem DefrostOnly.refl (r : Bay) : DefrostOnly r r := by constructor <;> rfl
theorem FrostOnly.refl (r : Bay) : FrostOnly r r := by constructor <;> rfl
theorem PlanPart.refl (r : Bay) : PlanPart r r := by constructor <;> rfl

theorem DefrostOnly.trans (a b c : Bay) (h : DefrostOnly a b) (k : DefrostOnly b c) : DefrostOnly a c :=
  ⟨k.entry.trans h.entry, k.settings.trans h.settings, k.readings.trans h.readings, k.frost.trans h.frost,
   k.fuel.trans h.fuel, k.door.trans h.door, k.presence.trans h.presence, k.missCount.trans h.missCount,
   k.lostReported.trans h.lostReported⟩

theorem FrostOnly.trans (a b c : Bay) (h : FrostOnly a b) (k : FrostOnly b c) : FrostOnly a c :=
  ⟨k.entry.trans h.entry, k.settings.trans h.settings, k.readings.trans h.readings, k.accrualEnd.trans h.accrualEnd,
   k.doorSeconds.trans h.doorSeconds, k.secondCounted.trans h.secondCounted, k.fuel.trans h.fuel, k.door.trans h.door,
   k.presence.trans h.presence, k.missCount.trans h.missCount, k.lostReported.trans h.lostReported⟩

theorem PlanPart.trans (a b c : Bay) (h : PlanPart a b) (k : PlanPart b c) : PlanPart a c :=
  ⟨k.entry.trans h.entry, k.settings.trans h.settings⟩

theorem DefrostOnly.frostOnly (a b : Bay) (h : DefrostOnly a b) : FrostOnly a b :=
  ⟨h.entry, h.settings, h.readings, by rw [h.frost], by rw [h.frost], by rw [h.frost], h.fuel, h.door, h.presence,
   h.missCount, h.lostReported⟩

theorem FrostOnly.planPart (a b : Bay) (h : FrostOnly a b) : PlanPart a b := ⟨h.entry, h.settings⟩

/-! ## A block's operation -/

theorem Works.mono {R S : Bay → Bay → Prop} (hi : ∀ a b, R a b → S a b) {s t : State} (h : Works R s t) : Works S s t :=
  ⟨h.calm, h.claims, h.posts, h.bays.mono hi, h.watch⟩

theorem Works.transR {R : Bay → Bay → Prop} (ht : ∀ a b c, R a b → R b c → R a c) {s t u : State}
    (h : Works R s t) (k : Works R t u) : Works R s u :=
  ⟨h.calm.trans k.calm, k.claims.trans h.claims, h.posts.trans k.posts, h.bays.trans ht k.bays, fun w => k.watch (h.watch w)⟩

theorem Works.reflR {R : Bay → Bay → Prop} (hr : ∀ a, R a a) (s : State) : Works R s s :=
  ⟨Calm.refl s, rfl, .refl, ⟨rfl, fun _ r h => ⟨r, h, hr r⟩⟩, id⟩

theorem Defrosts.refl (s : State) : Defrosts s s := Works.reflR DefrostOnly.refl s
theorem Frosts.refl (s : State) : Frosts s s := Works.reflR FrostOnly.refl s
theorem Blocks.refl (s : State) : Blocks s s := Works.reflR PlanPart.refl s

theorem Defrosts.trans {s t u : State} (h : Defrosts s t) (k : Defrosts t u) : Defrosts s u :=
  Works.transR DefrostOnly.trans h k
theorem Frosts.trans {s t u : State} (h : Frosts s t) (k : Frosts t u) : Frosts s u := Works.transR FrostOnly.trans h k
theorem Blocks.trans {s t u : State} (h : Blocks s t) (k : Blocks t u) : Blocks s u := Works.transR PlanPart.trans h k

theorem Defrosts.frosts {s t : State} (h : Defrosts s t) : Frosts s t := h.mono DefrostOnly.frostOnly
theorem Frosts.blocks {s t : State} (h : Frosts s t) : Blocks s t := h.mono FrostOnly.planPart
theorem Defrosts.blocks {s t : State} (h : Defrosts s t) : Blocks s t := h.frosts.blocks

/-- One bay's record changed within `R`. -/
theorem works_modBay {R : Bay → Bay → Prop} (hr : ∀ a, R a a) (s : State) (b : Nat) (f : Bay → Bay)
    (hf : ∀ r, R r (f r)) : Works R s (s.modBay b f) := by
  refine ⟨by constructor <;> rfl, rfl, .refl, ⟨by simp, fun c r h => ?_⟩, id⟩
  by_cases hc : c = b
  · subst hc; exact ⟨f r, by simp [h], hf r⟩
  · exact ⟨r, by simp [h, hc], hr r⟩

/-- Only DS's part-wide fields, LC's watch list and the shed state changed. -/
theorem works_part {R : Bay → Bay → Prop} (hr : ∀ a, R a a) {s t : State} (hc : Calm s t) (hl : t.claims = s.claims)
    (hp : t.ports = s.ports) (hb : t.bays = s.bays) (hw : WatchBound s.watch → WatchBound t.watch) : Works R s t :=
  ⟨hc, hl, hp ▸ .refl, ⟨by rw [hb], fun _ r h => ⟨r, by rw [hb]; exact h, hr r⟩⟩, hw⟩

/-- What an operation does on a bay that the plan holds is all that it does. -/
theorem works_onBay {R : Bay → Bay → Prop} (hr : ∀ a, R a a) (s : State) (b : Nat) (k : Bay → State)
    (h : ∀ r, s.bay? b = some r → Works R s (k r)) : Works R s (s.onBay b k) := by
  unfold State.onBay
  cases hb : s.bay? b with
  | none => exact Works.reflR hr s
  | some r => exact h r hb

/-- An operation over a list of bays, one after another. -/
theorem works_foldl {R : Bay → Bay → Prop} (hr : ∀ a, R a a) (ht : ∀ a b c, R a b → R b c → R a c) {β : Type}
    (f : State → β → State) (h : ∀ s x, Works R s (f s x)) (l : List β) (s : State) : Works R s (l.foldl f s) := by
  induction l generalizing s with
  | nil => exact Works.reflR hr s
  | cons x l ih => exact (h s x).transR ht (ih (f s x))

theorem works_overBays {R : Bay → Bay → Prop} (hr : ∀ a, R a a) (ht : ∀ a b c, R a b → R b c → R a c)
    (f : Nat → State → State) (h : ∀ b s, Works R s (f b s)) (s : State) : Works R s (s.overBays f) :=
  works_foldl hr ht (fun t b => f b t) (fun t b => h b t) s.addresses s

/-! ## Reading the relations -/

theorem Works.bay {R : Bay → Bay → Prop} {s t : State} (h : Works R s t) {b : Nat} {r : Bay} (hr : s.bay? b = some r) :
    ∃ r', t.bay? b = some r' ∧ R r r' := h.bays.2 b r hr

theorem Works.planned {R : Bay → Bay → Prop} {s t : State} (h : Works R s t) (b : Nat) : t.planned b = s.planned b := by
  unfold State.planned State.bay?
  rw [Bool.eq_iff_iff, findKey_isSome_iff, findKey_isSome_iff, h.bays.1]

theorem Works.claimOf {R : Bay → Bay → Prop} {s t : State} (h : Works R s t) (b : Nat) : t.claimOf b = s.claimOf b := by
  unfold State.claimOf; rw [h.claims]

theorem Works.claimed {R : Bay → Bay → Prop} {s t : State} (h : Works R s t) (b : Nat) : t.claimed b = s.claimed b := by
  unfold State.claimed; rw [h.claimOf]

end Sys2Proof.Machine
end

