-- ==== Sys2Proof/Laws/Events.lean ====
section
/-!
SUPPORT. Posting: what it can change, and what a queue keeps while it takes events (10 R186 to R189).
-/
namespace Sys2Proof.Machine

/-! ## Posting changes the ports alone -/

theorem copies_eq (e : Event) (l : List Port) (s : State) :
    l.foldl (fun t p => t.modPort p fun ps => ps.take e) s
      = { s with ports := l.foldl (fun x p => x.mod p fun ps => ps.take e) s.ports } := by
  induction l generalizing s with
  | nil => rfl
  | cons p l ih => rw [List.foldl_cons, ih]; rfl

theorem posts_copies (e : Event) (he : e.count = 1) (l : List Port) (x : PerPort PortState) :
    Posts x (l.foldl (fun x p => x.mod p fun ps => ps.take e) x) := by
  have h : ∀ (l : List Port) (y : PerPort PortState), Posts x y →
      Posts x (l.foldl (fun x p => x.mod p fun ps => ps.take e) y) := by
    intro l
    induction l with
    | nil => exact fun y hy => hy
    | cons p l ih => exact fun y hy => ih _ (hy.take p e he)
  exact h l x .refl

theorem postAt_eq (s : State) (home : Port) (k : EventKind) (b : Nat) (d : List Item) :
    s.postAt home k b d = { s with ports := (s.postAt home k b d).ports } := by
  unfold State.postAt
  rw [copies_eq]
  rfl

theorem post_eq (s : State) (k : EventKind) (b : Nat) (d : List Item) :
    s.post k b d = { s with ports := (s.post k b d).ports } := postAt_eq s k.home k b d

theorem posts_postAt (s : State) (home : Port) (k : EventKind) (b : Nat) (d : List Item) :
    Posts s.ports (s.postAt home k b d).ports := by
  unfold State.postAt
  rw [copies_eq]
  exact Posts.trans (Posts.take home _ .refl rfl) (posts_copies _ rfl _ _)

theorem defrosts_postAt (s : State) (home : Port) (k : EventKind) (b : Nat) (d : List Item) :
    Defrosts s (s.postAt home k b d) := by
  refine ⟨?_, ?_, posts_postAt s home k b d, ⟨?_, ?_⟩, ?_⟩ <;> rw [postAt_eq]
  · constructor <;> rfl
  · exact fun _ r h => ⟨r, h, DefrostOnly.refl r⟩
  · exact id

theorem defrosts_post (s : State) (k : EventKind) (b : Nat) (d : List Item) : Defrosts s (s.post k b d) :=
  defrosts_postAt s k.home k b d

/-! ## What a posting leaves of the other fields -/

@[simp] theorem postAt_now (s : State) (home : Port) (k : EventKind) (b : Nat) (d : List Item) :
    (s.postAt home k b d).now = s.now := by rw [postAt_eq]
@[simp] theorem postAt_pending (s : State) (home : Port) (k : EventKind) (b : Nat) (d : List Item) :
    (s.postAt home k b d).pending = s.pending := by rw [postAt_eq]
@[simp] theorem postAt_freeCount (s : State) (home : Port) (k : EventKind) (b : Nat) (d : List Item) :
    (s.postAt home k b d).freeCount = s.freeCount := by rw [postAt_eq]
@[simp] theorem postAt_mode (s : State) (home : Port) (k : EventKind) (b : Nat) (d : List Item) :
    (s.postAt home k b d).mode = s.mode := by rw [postAt_eq]
@[simp] theorem postAt_nextMain (s : State) (home : Port) (k : EventKind) (b : Nat) (d : List Item) :
    (s.postAt home k b d).nextMain = s.nextMain := by rw [postAt_eq]
@[simp] theorem postAt_slot (s : State) (home : Port) (k : EventKind) (b : Nat) (d : List Item) :
    (s.postAt home k b d).slot = s.slot := by rw [postAt_eq]
@[simp] theorem postAt_roundEnding (s : State) (home : Port) (k : EventKind) (b : Nat) (d : List Item) :
    (s.postAt home k b d).roundEnding = s.roundEnding := by rw [postAt_eq]
@[simp] theorem postAt_watch (s : State) (home : Port) (k : EventKind) (b : Nat) (d : List Item) :
    (s.postAt home k b d).watch = s.watch := by rw [postAt_eq]
@[simp] theorem postAt_cursor (s : State) (home : Port) (k : EventKind) (b : Nat) (d : List Item) :
    (s.postAt home k b d).cursor = s.cursor := by rw [postAt_eq]
@[simp] theorem postAt_yard (s : State) (home : Port) (k : EventKind) (b : Nat) (d : List Item) :
    (s.postAt home k b d).yard = s.yard := by rw [postAt_eq]
@[simp] theorem postAt_rows (s : State) (home : Port) (k : EventKind) (b : Nat) (d : List Item) :
    (s.postAt home k b d).rows = s.rows := by rw [postAt_eq]
@[simp] theorem postAt_bays (s : State) (home : Port) (k : EventKind) (b : Nat) (d : List Item) :
    (s.postAt home k b d).bays = s.bays := by rw [postAt_eq]
@[simp] theorem postAt_staged (s : State) (home : Port) (k : EventKind) (b : Nat) (d : List Item) :
    (s.postAt home k b d).staged = s.staged := by rw [postAt_eq]
@[simp] theorem postAt_commitPending (s : State) (home : Port) (k : EventKind) (b : Nat) (d : List Item) :
    (s.postAt home k b d).commitPending = s.commitPending := by rw [postAt_eq]
@[simp] theorem postAt_marked (s : State) (home : Port) (k : EventKind) (b : Nat) (d : List Item) :
    (s.postAt home k b d).marked = s.marked := by rw [postAt_eq]
@[simp] theorem postAt_generation (s : State) (home : Port) (k : EventKind) (b : Nat) (d : List Item) :
    (s.postAt home k b d).generation = s.generation := by rw [postAt_eq]
@[simp] theorem postAt_fallback (s : State) (home : Port) (k : EventKind) (b : Nat) (d : List Item) :
    (s.postAt home k b d).fallback = s.fallback := by rw [postAt_eq]
@[simp] theorem postAt_clock (s : State) (home : Port) (k : EventKind) (b : Nat) (d : List Item) :
    (s.postAt home k b d).clock = s.clock := by rw [postAt_eq]
@[simp] theorem postAt_minuteEnd (s : State) (home : Port) (k : EventKind) (b : Nat) (d : List Item) :
    (s.postAt home k b d).minuteEnd = s.minuteEnd := by rw [postAt_eq]
@[simp] theorem postAt_queue (s : State) (home : Port) (k : EventKind) (b : Nat) (d : List Item) :
    (s.postAt home k b d).queue = s.queue := by rw [postAt_eq]
@[simp] theorem postAt_lastJoin (s : State) (home : Port) (k : EventKind) (b : Nat) (d : List Item) :
    (s.postAt home k b d).lastJoin = s.lastJoin := by rw [postAt_eq]
@[simp] theorem postAt_slotHolders (s : State) (home : Port) (k : EventKind) (b : Nat) (d : List Item) :
    (s.postAt home k b d).slotHolders = s.slotHolders := by rw [postAt_eq]
@[simp] theorem postAt_raiseCounter (s : State) (home : Port) (k : EventKind) (b : Nat) (d : List Item) :
    (s.postAt home k b d).raiseCounter = s.raiseCounter := by rw [postAt_eq]
@[simp] theorem postAt_shed (s : State) (home : Port) (k : EventKind) (b : Nat) (d : List Item) :
    (s.postAt home k b d).shed = s.shed := by rw [postAt_eq]
@[simp] theorem postAt_shedLine (s : State) (home : Port) (k : EventKind) (b : Nat) (d : List Item) :
    (s.postAt home k b d).shedLine = s.shedLine := by rw [postAt_eq]
@[simp] theorem postAt_filtered (s : State) (home : Port) (k : EventKind) (b : Nat) (d : List Item) :
    (s.postAt home k b d).filtered = s.filtered := by rw [postAt_eq]
@[simp] theorem postAt_filterEnd (s : State) (home : Port) (k : EventKind) (b : Nat) (d : List Item) :
    (s.postAt home k b d).filterEnd = s.filterEnd := by rw [postAt_eq]
@[simp] theorem postAt_releaseSeen (s : State) (home : Port) (k : EventKind) (b : Nat) (d : List Item) :
    (s.postAt home k b d).releaseSeen = s.releaseSeen := by rw [postAt_eq]
@[simp] theorem postAt_dwell (s : State) (home : Port) (k : EventKind) (b : Nat) (d : List Item) :
    (s.postAt home k b d).dwell = s.dwell := by rw [postAt_eq]
@[simp] theorem postAt_gapEnd (s : State) (home : Port) (k : EventKind) (b : Nat) (d : List Item) :
    (s.postAt home k b d).gapEnd = s.gapEnd := by rw [postAt_eq]
@[simp] theorem postAt_silence (s : State) (home : Port) (k : EventKind) (b : Nat) (d : List Item) :
    (s.postAt home k b d).silence = s.silence := by rw [postAt_eq]
@[simp] theorem postAt_silenceTimer (s : State) (home : Port) (k : EventKind) (b : Nat) (d : List Item) :
    (s.postAt home k b d).silenceTimer = s.silenceTimer := by rw [postAt_eq]
@[simp] theorem postAt_savedMode (s : State) (home : Port) (k : EventKind) (b : Nat) (d : List Item) :
    (s.postAt home k b d).savedMode = s.savedMode := by rw [postAt_eq]
@[simp] theorem postAt_claims (s : State) (home : Port) (k : EventKind) (b : Nat) (d : List Item) :
    (s.postAt home k b d).claims = s.claims := by rw [postAt_eq]
@[simp] theorem postAt_mirrors (s : State) (home : Port) (k : EventKind) (b : Nat) (d : List Item) :
    (s.postAt home k b d).mirrors = s.mirrors := by rw [postAt_eq]
@[simp] theorem post_now (s : State) (k : EventKind) (b : Nat) (d : List Item) :
    (s.post k b d).now = s.now := by rw [post_eq]
@[simp] theorem post_pending (s : State) (k : EventKind) (b : Nat) (d : List Item) :
    (s.post k b d).pending = s.pending := by rw [post_eq]
@[simp] theorem post_freeCount (s : State) (k : EventKind) (b : Nat) (d : List Item) :
    (s.post k b d).freeCount = s.freeCount := by rw [post_eq]
@[simp] theorem post_mode (s : State) (k : EventKind) (b : Nat) (d : List Item) :
    (s.post k b d).mode = s.mode := by rw [post_eq]
@[simp] theorem post_nextMain (s : State) (k : EventKind) (b : Nat) (d : List Item) :
    (s.post k b d).nextMain = s.nextMain := by rw [post_eq]
@[simp] theorem post_slot (s : State) (k : EventKind) (b : Nat) (d : List Item) :
    (s.post k b d).slot = s.slot := by rw [post_eq]
@[simp] theorem post_roundEnding (s : State) (k : EventKind) (b : Nat) (d : List Item) :
    (s.post k b d).roundEnding = s.roundEnding := by rw [post_eq]
@[simp] theorem post_watch (s : State) (k : EventKind) (b : Nat) (d : List Item) :
    (s.post k b d).watch = s.watch := by rw [post_eq]
@[simp] theorem post_cursor (s : State) (k : EventKind) (b : Nat) (d : List Item) :
    (s.post k b d).cursor = s.cursor := by rw [post_eq]
@[simp] theorem post_yard (s : State) (k : EventKind) (b : Nat) (d : List Item) :
    (s.post k b d).yard = s.yard := by rw [post_eq]
@[simp] theorem post_rows (s : State) (k : EventKind) (b : Nat) (d : List Item) :
    (s.post k b d).rows = s.rows := by rw [post_eq]
@[simp] theorem post_bays (s : State) (k : EventKind) (b : Nat) (d : List Item) :
    (s.post k b d).bays = s.bays := by rw [post_eq]
@[simp] theorem post_staged (s : State) (k : EventKind) (b : Nat) (d : List Item) :
    (s.post k b d).staged = s.staged := by rw [post_eq]
@[simp] theorem post_commitPending (s : State) (k : EventKind) (b : Nat) (d : List Item) :
    (s.post k b d).commitPending = s.commitPending := by rw [post_eq]
@[simp] theorem post_marked (s : State) (k : EventKind) (b : Nat) (d : List Item) :
    (s.post k b d).marked = s.marked := by rw [post_eq]
@[simp] theorem post_generation (s : State) (k : EventKind) (b : Nat) (d : List Item) :
    (s.post k b d).generation = s.generation := by rw [post_eq]
@[simp] theorem post_fallback (s : State) (k : EventKind) (b : Nat) (d : List Item) :
    (s.post k b d).fallback = s.fallback := by rw [post_eq]
@[simp] theorem post_clock (s : State) (k : EventKind) (b : Nat) (d : List Item) :
    (s.post k b d).clock = s.clock := by rw [post_eq]
@[simp] theorem post_minuteEnd (s : State) (k : EventKind) (b : Nat) (d : List Item) :
    (s.post k b d).minuteEnd = s.minuteEnd := by rw [post_eq]
@[simp] theorem post_queue (s : State) (k : EventKind) (b : Nat) (d : List Item) :
    (s.post k b d).queue = s.queue := by rw [post_eq]
@[simp] theorem post_lastJoin (s : State) (k : EventKind) (b : Nat) (d : List Item) :
    (s.post k b d).lastJoin = s.lastJoin := by rw [post_eq]
@[simp] theorem post_slotHolders (s : State) (k : EventKind) (b : Nat) (d : List Item) :
    (s.post k b d).slotHolders = s.slotHolders := by rw [post_eq]
@[simp] theorem post_raiseCounter (s : State) (k : EventKind) (b : Nat) (d : List Item) :
    (s.post k b d).raiseCounter = s.raiseCounter := by rw [post_eq]
@[simp] theorem post_shed (s : State) (k : EventKind) (b : Nat) (d : List Item) :
    (s.post k b d).shed = s.shed := by rw [post_eq]
@[simp] theorem post_shedLine (s : State) (k : EventKind) (b : Nat) (d : List Item) :
    (s.post k b d).shedLine = s.shedLine := by rw [post_eq]
@[simp] theorem post_filtered (s : State) (k : EventKind) (b : Nat) (d : List Item) :
    (s.post k b d).filtered = s.filtered := by rw [post_eq]
@[simp] theorem post_filterEnd (s : State) (k : EventKind) (b : Nat) (d : List Item) :
    (s.post k b d).filterEnd = s.filterEnd := by rw [post_eq]
@[simp] theorem post_releaseSeen (s : State) (k : EventKind) (b : Nat) (d : List Item) :
    (s.post k b d).releaseSeen = s.releaseSeen := by rw [post_eq]
@[simp] theorem post_dwell (s : State) (k : EventKind) (b : Nat) (d : List Item) :
    (s.post k b d).dwell = s.dwell := by rw [post_eq]
@[simp] theorem post_gapEnd (s : State) (k : EventKind) (b : Nat) (d : List Item) :
    (s.post k b d).gapEnd = s.gapEnd := by rw [post_eq]
@[simp] theorem post_silence (s : State) (k : EventKind) (b : Nat) (d : List Item) :
    (s.post k b d).silence = s.silence := by rw [post_eq]
@[simp] theorem post_silenceTimer (s : State) (k : EventKind) (b : Nat) (d : List Item) :
    (s.post k b d).silenceTimer = s.silenceTimer := by rw [post_eq]
@[simp] theorem post_savedMode (s : State) (k : EventKind) (b : Nat) (d : List Item) :
    (s.post k b d).savedMode = s.savedMode := by rw [post_eq]
@[simp] theorem post_claims (s : State) (k : EventKind) (b : Nat) (d : List Item) :
    (s.post k b d).claims = s.claims := by rw [post_eq]
@[simp] theorem post_mirrors (s : State) (k : EventKind) (b : Nat) (d : List Item) :
    (s.post k b d).mirrors = s.mirrors := by rw [post_eq]

@[simp] theorem post_bay? (s : State) (k : EventKind) (b c : Nat) (d : List Item) :
    (s.post k b d).bay? c = s.bay? c := by rw [post_eq]; rfl
@[simp] theorem postAt_bay? (s : State) (home : Port) (k : EventKind) (b c : Nat) (d : List Item) :
    (s.postAt home k b d).bay? c = s.bay? c := by rw [postAt_eq]; rfl

end Sys2Proof.Machine
end

