-- ==== Sys2Proof/Laws/Blocks.lean ====
section
/-!
SUPPORT. What each block's operation keeps, one lemma per operation: `Defrosts` for the watch list, the command holder's
wants and the selection run, `Frosts` for DS with FAU, `Blocks` for doors, fuel and alarms (01, 03 to 06, 09).
-/
namespace Sys2Proof.Machine

/-! ## Watch list (01) -/

theorem watch_only (s : State) (w : List Nat) (c : Option Nat) (h : WatchBound s.watch → WatchBound w) :
    Defrosts s { s with watch := w, cursor := c } :=
  works_part DefrostOnly.refl (by constructor <;> rfl) rfl rfl rfl h

theorem watchBound_append {w : List Nat} {b : Nat} (h : WatchBound w) (hb : b ∉ w) (hl : w.length < watchCapacity) :
    WatchBound (w ++ [b]) := by
  refine ⟨by simp; omega, ?_⟩
  rw [List.nodup_append]
  exact ⟨h.2, by simp, by rintro a ha c hc rfl; simp at hc; exact hb (hc ▸ ha)⟩

theorem defrosts_enlist (s : State) (b : Nat) : Defrosts s (s.enlist b) := by
  unfold State.enlist
  split
  · exact .refl s
  · next h =>
    simp only [Bool.or_eq_true, List.contains_iff_mem, decide_eq_true_eq, not_or, not_le] at h
    exact watch_only s _ s.cursor fun w => watchBound_append w h.1 h.2

theorem defrosts_causeBegins (s : State) (b : Nat) : Defrosts s (s.causeBegins b) := defrosts_enlist s b

theorem defrosts_enlistLowest (s : State) : Defrosts s s.enlistLowest := by
  unfold State.enlistLowest
  split
  · exact defrosts_enlist s _
  · exact .refl s

theorem defrosts_takeOff (s : State) (b : Nat) : Defrosts s (s.takeOff b) :=
  watch_only s _ _ fun w => ⟨le_trans (List.length_filter_le _ _) w.1, w.2.filter _⟩

theorem defrosts_removeWatch (s : State) (b : Nat) : Defrosts s (s.removeWatch b) := by
  unfold State.removeWatch
  split
  · exact (defrosts_takeOff s b).trans (defrosts_enlistLowest _)
  · exact .refl s

theorem defrosts_causeEnds (s : State) (b : Nat) : Defrosts s (s.causeEnds b) := by
  unfold State.causeEnds
  split
  · exact .refl s
  · exact defrosts_removeWatch s b

/-! ## Wants, queue and selection (01 R15, R22; 04) -/

theorem dropUnwanted_keeps (l : LoopRec) (w : Option DefrostWant) :
    (l.dropUnwanted w).presence = l.presence ∧ (l.dropUnwanted w).missCount = l.missCount
      ∧ (l.dropUnwanted w).lostReported = l.lostReported := by
  unfold LoopRec.dropUnwanted LoopRec.drop
  split
  · exact ⟨rfl, rfl, rfl⟩
  · split
    · exact ⟨rfl, rfl, rfl⟩
    · split <;> exact ⟨rfl, rfl, rfl⟩

theorem defrosts_modDefrost (s : State) (b : Nat) (f : DefrostRec → DefrostRec) : Defrosts s (s.modDefrost b f) :=
  works_modBay DefrostOnly.refl s b _ fun _ => by constructor <;> rfl

theorem defrosts_setWant (s : State) (b : Nat) (w : Option DefrostWant) : Defrosts s (s.setWant b w) :=
  (defrosts_modDefrost s b _).trans <| works_modBay DefrostOnly.refl _ b _ fun r =>
    let h := dropUnwanted_keeps r.loop w
    ⟨rfl, rfl, rfl, rfl, rfl, rfl, h.1, h.2.1, h.2.2⟩

/-- DS's part-wide fields changed: queue, join number, slot-holder count, raise counter, shed state and its timers. -/
theorem defrosts_part (s : State) (q : List QueueEntry) (j n k : Nat) (sh : ShedState) (rs : Bool) (dw : Timer)
    (g : Option Nat) :
    Defrosts s { s with queue := q, lastJoin := j, slotHolders := n, raiseCounter := k, shed := sh, releaseSeen := rs,
                        dwell := dw, gapEnd := g } :=
  works_part DefrostOnly.refl (by constructor <;> rfl) rfl rfl rfl id

theorem defrosts_joinQueue (s : State) (b : Nat) : Defrosts s (s.joinQueue b) :=
  (defrosts_modDefrost s b _).trans (defrosts_part _ _ _ _ _ _ _ _ _)

theorem defrosts_leaveQueue (s : State) (b : Nat) : Defrosts s (s.leaveQueue b) :=
  (defrosts_modDefrost s b _).trans (defrosts_part _ _ _ _ _ _ _ _ _)

theorem defrosts_restoreQueue (s : State) (b e j : Nat) : Defrosts s (s.restoreQueue b e j) :=
  (defrosts_modDefrost s b _).trans (defrosts_part _ _ _ _ _ _ _ _ _)

theorem defrosts_takeSlot (s : State) (b : Nat) : Defrosts s (s.takeSlot b) :=
  (defrosts_modDefrost s b _).trans (defrosts_part _ _ _ _ _ _ _ _ _)

theorem defrosts_onBay (s : State) (b : Nat) (k : Bay → State) (h : ∀ r, s.bay? b = some r → Defrosts s (k r)) :
    Defrosts s (s.onBay b k) := works_onBay DefrostOnly.refl s b k h

theorem defrosts_clearSlot (s : State) (b : Nat) : Defrosts s (s.clearSlot b) := by
  refine defrosts_onBay s b _ fun r _ => ?_
  split
  · exact (defrosts_modDefrost s b _).trans (defrosts_part _ _ _ _ _ _ _ _ _)
  · exact .refl s

theorem defrosts_foldl {β : Type} (f : State → β → State) (h : ∀ s x, Defrosts s (f s x)) (l : List β) (s : State) :
    Defrosts s (l.foldl f s) := works_foldl DefrostOnly.refl DefrostOnly.trans f h l s

theorem defrosts_clearFuelBlocks (s : State) : Defrosts s s.clearFuelBlocks := by
  refine defrosts_foldl _ (fun t (q : QueueEntry) => defrosts_onBay t q.bay _ fun r _ => ?_) _ _
  split
  · exact defrosts_modDefrost t q.bay _
  · exact .refl t

theorem defrosts_grant (s : State) (b : Nat) (k : DefrostKind) (slot : Bool) : Defrosts s (s.grant b k slot) := by
  refine defrosts_onBay s b _ fun r _ => ?_
  dsimp only
  refine Defrosts.trans ?_ (defrosts_causeBegins _ b)
  split
  · exact (((defrosts_leaveQueue s b).trans (defrosts_modDefrost _ b _)).trans (defrosts_setWant _ b _)).trans
      (defrosts_takeSlot _ b)
  · exact ((defrosts_leaveQueue s b).trans (defrosts_modDefrost _ b _)).trans (defrosts_setWant _ b _)

theorem defrosts_shoreGrants (n : Nat) (s : State) : Defrosts s (shoreGrants n s) := by
  induction n generalizing s with
  | zero => exact .refl s
  | succ n ih =>
    unfold shoreGrants
    split
    · exact .refl s
    · exact ((defrosts_part s _ _ _ _ _ _ _ _).trans (defrosts_grant s.countGrant _ _ _)).trans (ih _)

theorem defrosts_blockOnFuel (s : State) (b : Nat) (r : Bay) : Defrosts s (s.blockOnFuel b r) := by
  unfold State.blockOnFuel
  split
  · exact .refl s
  · exact (defrosts_modDefrost s b _).trans (defrosts_post _ _ _ _)

theorem defrosts_engineGrant (s : State) (b : Nat) : Defrosts s (s.engineGrant b) := by
  refine defrosts_onBay s b _ fun r _ => ?_
  split
  · split
    · exact defrosts_grant s b _ _
    · exact defrosts_blockOnFuel s b r
  · exact .refl s

theorem defrosts_reportWaiting (s : State) (b : Nat) (r : Bay) : Defrosts s (s.reportWaiting b r) := by
  unfold State.reportWaiting
  split
  · exact .refl s
  · exact (defrosts_modDefrost s b _).trans (defrosts_post _ _ _ _)

theorem defrosts_forcedFallback (s : State) (b : Nat) : Defrosts s (s.forcedFallback b) := by
  refine defrosts_onBay s b _ fun r _ => ?_
  split
  · split
    · exact defrosts_grant s b _ _
    · refine (defrosts_reportWaiting s b r).trans ?_
      split
      · exact defrosts_blockOnFuel _ b r
      · exact .refl _
  · exact .refl s

/-- A selection run (R69) touches the defrost records, the commands in flight, the queue, the slots, the raise counter,
the watch list, and posts. -/
theorem defrosts_select (s : State) : Defrosts s s.select := by
  unfold State.select
  exact (((defrosts_clearFuelBlocks s).trans (defrosts_shoreGrants _ _)).trans
    (defrosts_foldl _ defrosts_engineGrant _ _)).trans (defrosts_foldl _ defrosts_forcedFallback _ _)

theorem defrosts_selectIfQueued (s : State) (b : Nat) : Defrosts s (s.selectIfQueued b) := by
  unfold State.selectIfQueued
  split
  · exact defrosts_select s
  · exact .refl s

/-! ## Shed (09) -/

theorem defrosts_startDwell (s : State) : Defrosts s s.startDwell := defrosts_part s _ _ _ _ _ _ _ _

theorem defrosts_enterShed (s : State) : Defrosts s s.enterShed :=
  ((defrosts_part s _ _ _ _ .shed false _ _).trans (defrosts_startDwell _)).trans (defrosts_post _ _ _ _)

theorem defrosts_shedCheck (s : State) : Defrosts s s.shedCheck := by
  unfold State.shedCheck
  split
  · exact defrosts_enterShed s
  · exact .refl s

theorem defrosts_leaveShed (s : State) : Defrosts s s.leaveShed :=
  ((defrosts_part s _ _ _ _ .normal false .absent none).trans (defrosts_post _ _ _ _)).trans (defrosts_select _)

theorem defrosts_enterRestart (s : State) : Defrosts s s.enterRestart := by
  have h : Defrosts s { s with shed := .restart, dwell := .absent, releaseSeen := false } :=
    defrosts_part s _ _ _ _ .restart false .absent _
  unfold State.enterRestart
  dsimp only
  split
  · exact h.trans (defrosts_leaveShed _)
  · exact defrosts_part s _ _ _ _ .restart false .absent _

theorem defrosts_shedAssert (s : State) : Defrosts s s.shedAssert := by
  unfold State.shedAssert
  split
  · exact ((defrosts_part s _ _ _ _ .draining _ _ _).trans (defrosts_select _)).trans (defrosts_shedCheck _)
  · exact .refl s
  · exact defrosts_part s _ _ _ _ _ false _ _
  · exact (defrosts_part s _ _ _ _ .shed false _ none).trans (defrosts_startDwell _)

theorem defrosts_shedRelease (s : State) : Defrosts s s.shedRelease := by
  unfold State.shedRelease
  split
  · exact .refl s
  · exact (defrosts_part s _ _ _ _ .normal _ _ _).trans (defrosts_select _)
  · split
    · exact defrosts_enterRestart s
    · exact defrosts_part s _ _ _ _ _ true _ _
  · exact .refl s

theorem defrosts_dwellElapses (s : State) : Defrosts s s.dwellElapses := by
  have h : Defrosts s { s with dwell := .spent } := defrosts_part s _ _ _ _ _ _ .spent _
  unfold State.dwellElapses
  dsimp only
  split
  · exact h.trans (defrosts_enterRestart _)
  · exact h

/-! ## Urgency (03) -/

theorem defrosts_urgencyReported (s : State) (b : Nat) : Defrosts s (s.urgencyReported b) := by
  refine defrosts_onBay s b _ fun r _ => ?_
  split
  · split
    · exact defrosts_joinQueue s b
    · exact .refl s
  · split
    · exact (defrosts_leaveQueue s b).trans (defrosts_modDefrost _ b _)
    · exact .refl s
  all_goals exact .refl s

/-- FAU's debt, level, count and mark changed; the interval in progress stands. -/
theorem frosts_modFrost (s : State) (b : Nat) (f : FrostRec → FrostRec)
    (h : ∀ x, (f x).accrualEnd = x.accrualEnd ∧ (f x).doorSeconds = x.doorSeconds
      ∧ (f x).secondCounted = x.secondCounted) : Frosts s (s.modFrost b f) :=
  works_modBay FrostOnly.refl s b _ fun r => ⟨rfl, rfl, rfl, (h r.frost).1, (h r.frost).2.1, (h r.frost).2.2, rfl, rfl, rfl, rfl, rfl⟩

theorem frosts_onBay (s : State) (b : Nat) (k : Bay → State) (h : ∀ r, s.bay? b = some r → Frosts s (k r)) :
    Frosts s (s.onBay b k) := works_onBay FrostOnly.refl s b k h

theorem frosts_recomputeUrgency (s : State) (b : Nat) : Frosts s (s.recomputeUrgency b) := by
  refine frosts_onBay s b _ fun r _ => ?_
  dsimp only
  split
  · exact .refl s
  · refine Frosts.trans ?_ (defrosts_urgencyReported _ b).frosts
    exact frosts_modFrost s b _ fun _ => ⟨rfl, rfl, rfl⟩

theorem frosts_recomputeAndSelect (s : State) (b : Nat) : Frosts s (s.recomputeAndSelect b) := by
  unfold State.recomputeAndSelect
  dsimp only
  split
  · exact (frosts_recomputeUrgency s b).trans (defrosts_select _).frosts
  · exact frosts_recomputeUrgency s b

/-! ## The defrost state machine (04) -/

theorem frosts_noticeNormalEnd (s : State) (b : Nat) : Frosts s (s.noticeNormalEnd b) := by
  refine Frosts.trans ?_ (frosts_recomputeUrgency _ b)
  exact frosts_modFrost s b _ fun _ => ⟨rfl, rfl, rfl⟩

theorem frosts_noticeStoppedEnd (s : State) (b : Nat) : Frosts s (s.noticeStoppedEnd b) :=
  frosts_modFrost s b _ fun _ => ⟨rfl, rfl, rfl⟩

theorem frosts_noticeCancelled (s : State) (b : Nat) : Frosts s (s.noticeCancelled b) := by
  refine Frosts.trans ?_ (frosts_recomputeUrgency _ b)
  exact frosts_modFrost s b _ fun _ => ⟨rfl, rfl, rfl⟩

theorem defrosts_toDrip (s : State) (b : Nat) : Defrosts s (s.toDrip b) := by
  refine defrosts_onBay s b _ fun r _ => ?_
  exact (((defrosts_setWant s b none).trans (defrosts_clearSlot _ b)).trans (defrosts_modDefrost _ b _)).trans
    (defrosts_causeEnds _ b)

theorem defrosts_endDrip (s : State) (b : Nat) : Defrosts s (s.endDrip b) := by
  refine defrosts_onBay s b _ fun r _ => ?_
  dsimp only
  split
  · exact (defrosts_modDefrost s b _).trans (defrosts_joinQueue _ b)
  · exact defrosts_modDefrost s b _

theorem defrosts_endShortDrip (s : State) (b : Nat) : Defrosts s (s.endShortDrip b) := by
  refine defrosts_onBay s b _ fun r _ => ?_
  split
  · exact defrosts_endDrip s b
  · exact .refl s

theorem defrosts_afterOutcome (s : State) (b : Nat) (h : Bool) : Defrosts s (s.afterOutcome b h) := by
  unfold State.afterOutcome
  dsimp only
  split
  · exact ((defrosts_endShortDrip s b).trans (defrosts_shedCheck _)).trans (defrosts_select _)
  · exact (defrosts_endShortDrip s b).trans (defrosts_selectIfQueued _ b)

theorem defrosts_startFails (s : State) (b n : Nat) : Defrosts s (s.startFails b n) := by
  refine defrosts_onBay s b _ fun r _ => ?_
  dsimp only
  refine Defrosts.trans ?_ (defrosts_afterOutcome _ b _)
  split
  · exact (((defrosts_toDrip s b).trans (defrosts_post _ _ _ _)).trans (defrosts_modDefrost _ b _)).trans
      (defrosts_post _ _ _ _)
  · exact ((defrosts_toDrip s b).trans (defrosts_post _ _ _ _)).trans (defrosts_modDefrost _ b _)

theorem defrosts_withdraw (s : State) (b : Nat) : Defrosts s (s.withdraw b) := by
  refine defrosts_onBay s b _ fun r _ => ?_
  dsimp only
  have h := ((defrosts_setWant s b none).trans (defrosts_clearSlot _ b)).trans (defrosts_modDefrost _ b fun d =>
    { d with kind := none, timer := .absent, kept := none, confirmed := false, checkCount := 0, state := .clear })
  have h2 : Defrosts s (State.causeEnds (if r.frost.urgency = .none then ((s.setWant b none).clearSlot b).modDefrost b
      fun d => { d with kind := none, timer := .absent, kept := none, confirmed := false, checkCount := 0, state := .clear }
    else match r.defrost.kept with
      | some (e, j) => State.restoreQueue (((s.setWant b none).clearSlot b).modDefrost b fun d =>
          { d with kind := none, timer := .absent, kept := none, confirmed := false, checkCount := 0, state := .clear }) b e j
      | none => State.joinQueue (((s.setWant b none).clearSlot b).modDefrost b fun d =>
          { d with kind := none, timer := .absent, kept := none, confirmed := false, checkCount := 0, state := .clear }) b) b) := by
    refine Defrosts.trans ?_ (defrosts_causeEnds _ b)
    split
    · exact h
    · split
      · exact h.trans (defrosts_restoreQueue _ _ _ _)
      · exact h.trans (defrosts_joinQueue _ _)
  split
  · exact (h2.trans (defrosts_shedCheck _)).trans (defrosts_select _)
  · exact h2.trans (defrosts_selectIfQueued _ b)

theorem frosts_endsNormally (s : State) (b : Nat) : Frosts s (s.endsNormally b) := by
  refine frosts_onBay s b _ fun r _ => ?_
  exact ((((defrosts_toDrip s b).trans (defrosts_modDefrost _ b _)).trans (defrosts_post _ _ _ _)).frosts.trans
    (frosts_noticeNormalEnd _ b)).trans (defrosts_afterOutcome _ b _).frosts

theorem frosts_endsStopped (s : State) (b : Nat) : Frosts s (s.endsStopped b) := by
  refine frosts_onBay s b _ fun r _ => ?_
  exact (((defrosts_toDrip s b).trans (defrosts_post _ _ _ _)).frosts.trans
    (frosts_noticeStoppedEnd _ b)).trans (defrosts_afterOutcome _ b _).frosts

theorem defrosts_abandon (s : State) (b n : Nat) : Defrosts s (s.abandon b n) := by
  refine defrosts_onBay s b _ fun r _ => ?_
  exact ((defrosts_toDrip s b).trans (defrosts_post _ _ _ _)).trans (defrosts_afterOutcome _ b _)

theorem defrosts_clearRefusal (s : State) (b : Nat) : Defrosts s (s.clearRefusal b) := defrosts_modDefrost s b _

theorem defrosts_starts (s : State) (b : Nat) : Defrosts s (s.starts b) := by
  refine defrosts_onBay s b _ fun r _ => ?_
  exact ((((defrosts_setWant s b none).trans (defrosts_clearRefusal _ b)).trans (defrosts_modDefrost _ b _)).trans
    (defrosts_post _ _ _ _)).trans (defrosts_causeEnds _ b)

theorem defrosts_countCheck (s : State) (b : Nat) : Defrosts s (s.countCheck b) := by
  refine defrosts_onBay s b _ fun r _ => ?_
  split
  · split
    · exact defrosts_startFails s b _
    · exact defrosts_modDefrost s b _
  · exact .refl s

theorem defrosts_unplanned (s : State) (b : Nat) : Defrosts s (s.unplanned b) := by
  refine defrosts_onBay s b _ fun r _ => ?_
  dsimp only
  have h := fun (f : DefrostRec → DefrostRec) =>
    ((defrosts_leaveQueue s b).trans (defrosts_clearRefusal _ b)).trans (defrosts_modDefrost _ b f)
  split
  · exact (h _).trans (defrosts_post _ _ _ _)
  · split
    · exact ((h _).trans (defrosts_takeSlot _ b)).trans (defrosts_post _ _ _ _)
    · split
      · exact ((((h _).trans (defrosts_modDefrost _ b _)).trans (defrosts_setWant _ b _)).trans
          (defrosts_causeBegins _ b)).trans (defrosts_post _ _ _ _)
      · exact (h _).trans (defrosts_post _ _ _ _)

theorem defrosts_resolvesRunning (s : State) (b : Nat) : Defrosts s (s.resolvesRunning b) :=
  ((defrosts_setWant s b none).trans (defrosts_clearRefusal _ b)).trans (defrosts_modDefrost _ b _)

theorem frosts_modeShown (s : State) (b : Nat) (m : UnitMode) : Frosts s (s.modeShown b m) := by
  refine frosts_onBay s b _ fun r _ => ?_
  have h1 := (defrosts_starts s b).frosts
  have h2 := (defrosts_withdraw s b).frosts
  have h3 := (defrosts_countCheck s b).frosts
  have h4 := (defrosts_clearRefusal s b).frosts
  have h5 := fun n => (defrosts_abandon s b n).frosts
  have h6 := frosts_endsNormally s b
  have h7 := frosts_endsStopped s b
  have h8 := (defrosts_resolvesRunning s b).frosts
  have h9 := (defrosts_unplanned s b).frosts
  split
  · split
    · exact h1
    · exact h2
    · exact h2
    all_goals (split; exact h2; exact h3)
  · split
    · exact h4
    · exact h5 _
    all_goals exact h6
  · split
    · exact h4
    all_goals exact h7
  · split
    · exact h8
    all_goals exact h6
  all_goals (split; exact h9; all_goals exact .refl s)

theorem defrosts_holderOutcome (s : State) (b : Nat) (o : HolderOutcome) : Defrosts s (s.holderOutcome b o) := by
  unfold State.holderOutcome
  split
  · split
    · exact defrosts_modDefrost s b _
    · exact .refl s
  · exact defrosts_startFails s b _
  · exact .refl s
  · exact .refl s

/-- A reply that leaves the bay on its grant counts at most one reply of the start check (R76, R77). -/
theorem modeTaken_of_keepsGrant {s : State} {b : Nat} {r : Bay} {m : Option UnitMode} (hr : s.bay? b = some r)
    (h : r.keepsGrant m = true) :
    s.modeTaken b m = s ∨
      r.defrost.confirmed = true ∧ s.modeTaken b m = s.modDefrost b fun d => { d with checkCount := d.checkCount + 1 } := by
  have hg : r.defrost.state = .granted := by
    simp only [Bay.keepsGrant, Bool.and_eq_true, beq_iff_eq] at h
    exact h.1
  rcases m with _ | m
  · exact .inl rfl
  · cases m <;>
      simp_all [Bay.keepsGrant, State.modeTaken, State.modeShown, State.onBay, State.countCheck] <;>
      (by_cases hc : r.defrost.confirmed = true <;> simp_all)

theorem frosts_schedulerReply (s : State) (b : Nat) (m : Option UnitMode) (o : HolderOutcome) :
    Frosts s (s.schedulerReply b m o) := by
  have hm : Frosts s (s.modeTaken b m) := by
    cases m with
    | some m => exact frosts_modeShown s b m
    | none => exact .refl s
  refine frosts_onBay s b _ fun r _ => ?_
  dsimp only
  split
  · have h := hm.trans (defrosts_holderOutcome _ b o).frosts
    split
    · exact h.trans (defrosts_select _).frosts
    · exact h
  · split
    · exact hm.trans (defrosts_select _).frosts
    · exact hm

theorem defrosts_schedulerLost (s : State) (b : Nat) : Defrosts s (s.schedulerLost b) := by
  refine defrosts_onBay s b _ fun r _ => ?_
  split
  · exact defrosts_abandon s b _
  · exact .refl s

theorem defrosts_overruns (s : State) (b : Nat) : Defrosts s (s.overruns b) := by
  refine defrosts_onBay s b _ fun r _ => ?_
  exact (((defrosts_modDefrost s b _).trans (defrosts_setWant _ b _)).trans (defrosts_causeBegins _ b)).trans
    (defrosts_post _ _ _ _)

theorem defrosts_defrostTimerExpires (s : State) (b : Nat) : Defrosts s (s.defrostTimerExpires b) := by
  refine defrosts_onBay s b _ fun r _ => ?_
  split
  · exact defrosts_startFails s b _
  · split
    · exact defrosts_abandon s b _
    · exact defrosts_overruns s b
  · split
    · exact defrosts_abandon s b _
    · exact defrosts_modDefrost s b _
  · exact defrosts_abandon s b _
  all_goals exact .refl s

theorem defrosts_dripTimerExpires (s : State) (b : Nat) : Defrosts s (s.dripTimerExpires b) :=
  (defrosts_endDrip s b).trans (defrosts_selectIfQueued _ b)

theorem frosts_cancel (s : State) (b : Nat) : Frosts s (s.cancel b).1 := by
  unfold State.cancel
  split
  · exact .refl s
  · split
    · exact (((defrosts_leaveQueue s b).trans (defrosts_toDrip _ b)).trans (defrosts_afterOutcome _ b _)).frosts
    · exact ((defrosts_toDrip s b).trans (defrosts_afterOutcome _ b _)).frosts
    · exact (((defrosts_modDefrost s b _).trans (defrosts_setWant _ b _)).trans (defrosts_causeBegins _ b)).frosts.trans
        (frosts_noticeCancelled _ b)
    all_goals exact .refl s

theorem defrosts_overBays (f : Nat → State → State) (h : ∀ b s, Defrosts s (f b s)) (s : State) :
    Defrosts s (s.overBays f) := works_overBays DefrostOnly.refl DefrostOnly.trans f h s

theorem defrosts_withdrawAll (s : State) : Defrosts s s.withdrawAll := by
  refine defrosts_overBays _ (fun b t => ?_) s
  split
  · exact defrosts_withdraw t b
  · exact .refl t

theorem defrosts_toUnknown (s : State) (b : Nat) : Defrosts s (s.toUnknown b) := by
  refine defrosts_onBay s b _ fun r _ => ?_
  have h : Defrosts s ((s.modDefrost b fun d => { d with state := .unknown }).causeEnds b) :=
    (defrosts_modDefrost s b _).trans (defrosts_causeEnds _ b)
  split
  · dsimp only
    split
    · exact h.trans (defrosts_abandon _ b _)
    · exact h
  · exact .refl s

theorem defrosts_allToUnknown (s : State) : Defrosts s s.allToUnknown :=
  defrosts_overBays _ (fun b t => defrosts_toUnknown t b) s

theorem frosts_recomputeAll (s : State) : Frosts s s.recomputeAll :=
  works_overBays FrostOnly.refl FrostOnly.trans _ (fun b t => frosts_recomputeUrgency t b) s

/-- DS and FAU on a change of the loop mode (R87). -/
theorem frosts_schedulerMode (s : State) (old : LoopMode) : Frosts s (s.schedulerMode old) := by
  have h1 : Frosts s s.recordsForMode := by
    unfold State.recordsForMode
    split
    · exact (defrosts_withdrawAll s).frosts
    · exact ((defrosts_withdrawAll s).trans (defrosts_allToUnknown _)).frosts
    · exact .refl s
    · exact .refl s
  unfold State.schedulerMode
  dsimp only
  have h2 : ∀ c : Bool, Frosts s (if c = true then s.recordsForMode.recomputeAll else s.recordsForMode) := by
    intro c
    split
    · exact h1.trans (frosts_recomputeAll _)
    · exact h1
  generalize (decide (old = .fallback) || decide (s.recordsForMode.mode = .fallback)) = c
  have h3 := h2 c
  generalize (if c = true then s.recordsForMode.recomputeAll else s.recordsForMode) = v at h3 ⊢
  split
  · exact h3.trans (defrosts_select v).frosts
  · exact h3

/-! ## Doors (06) -/

theorem blocks_modDoor (s : State) (b : Nat) (f : DoorRec → DoorRec) : Blocks s (s.modDoor b f) :=
  works_modBay PlanPart.refl s b _ fun _ => ⟨rfl, rfl⟩

theorem blocks_modReadings (s : State) (b : Nat) (f : Readings → Readings) : Blocks s (s.modReadings b f) :=
  works_modBay PlanPart.refl s b _ fun _ => ⟨rfl, rfl⟩

theorem blocks_modLoop (s : State) (b : Nat) (f : LoopRec → LoopRec) : Blocks s (s.modLoop b f) :=
  works_modBay PlanPart.refl s b _ fun _ => ⟨rfl, rfl⟩

theorem blocks_modFrost (s : State) (b : Nat) (f : FrostRec → FrostRec) : Blocks s (s.modFrost b f) :=
  works_modBay PlanPart.refl s b _ fun _ => ⟨rfl, rfl⟩

theorem blocks_modFuel (s : State) (b : Nat) (f : FuelRec → FuelRec) : Blocks s (s.modFuel b f) :=
  works_modBay PlanPart.refl s b _ fun _ => ⟨rfl, rfl⟩

theorem blocks_onBay (s : State) (b : Nat) (k : Bay → State) (h : ∀ r, s.bay? b = some r → Blocks s (k r)) :
    Blocks s (s.onBay b k) := works_onBay PlanPart.refl s b k h

theorem blocks_post (s : State) (k : EventKind) (b : Nat) (d : List Item) : Blocks s (s.post k b d) :=
  (defrosts_post s k b d).blocks

theorem blocks_causeEnds (s : State) (b : Nat) : Blocks s (s.causeEnds b) := (defrosts_causeEnds s b).blocks
theorem blocks_causeBegins (s : State) (b : Nat) : Blocks s (s.causeBegins b) := (defrosts_causeBegins s b).blocks

theorem blocks_doorCloses (s : State) (b : Nat) (r : Bay) : Blocks s (s.doorCloses b r) := by
  unfold State.doorCloses
  dsimp only
  split
  · exact ((blocks_post s _ _ _).trans (blocks_modDoor _ b _)).trans (blocks_causeEnds _ b)
  · exact blocks_modDoor s b _
  · exact (blocks_modDoor s b _).trans (blocks_causeEnds _ b)
  · exact blocks_modDoor s b _
  · exact blocks_modDoor s b _

theorem blocks_doorOpens (s : State) (b : Nat) (r : Bay) : Blocks s (s.doorOpens b r) := by
  have h : Blocks s (if s.claimed b then s.modDoor b fun d => { d with state := .openAttended, listEntry := none }
      else (s.modDoor b fun d =>
        { d with state := .openTiming, listEntry := none, graceEnd := s.graceStart r }).causeBegins b) := by
    split
    · exact blocks_modDoor s b _
    · exact (blocks_modDoor s b _).trans (blocks_causeBegins _ b)
  unfold State.doorOpens
  split
  · exact h
  · exact h
  all_goals exact .refl s

theorem blocks_switchFaults (s : State) (b : Nat) (r : Bay) : Blocks s (s.switchFaults b r) :=
  ((blocks_modDoor s b _).trans (blocks_post _ _ _ _)).trans (blocks_causeEnds _ b)

theorem blocks_doorReading (s : State) (b : Nat) (report : Bool) : Blocks s (s.doorReading b report) := by
  refine blocks_onBay s b _ fun r _ => ?_
  split
  · exact blocks_doorCloses s b r
  · exact blocks_doorOpens s b r
  · split
    · exact blocks_switchFaults s b r
    · exact .refl s

theorem blocks_graceExpires (s : State) (b : Nat) : Blocks s (s.graceExpires b) := by
  refine blocks_onBay s b _ fun r _ => ?_
  split
  · exact (blocks_modDoor s b _).trans (blocks_post _ _ _ _)
  · exact .refl s

theorem blocks_doorClaimed (s : State) (b : Nat) : Blocks s (s.doorClaimed b) := by
  refine blocks_onBay s b _ fun r _ => ?_
  split
  · exact (blocks_modDoor s b _).trans (blocks_causeEnds _ b)
  all_goals exact .refl s

theorem blocks_doorUnclaimed (s : State) (b : Nat) : Blocks s (s.doorUnclaimed b) := by
  refine blocks_onBay s b _ fun r _ => ?_
  split
  · exact (blocks_modDoor s b _).trans (blocks_causeBegins _ b)
  all_goals exact .refl s

theorem blocks_beaconConfirmed (s : State) (b : Nat) (c : LoopCmd) : Blocks s (s.beaconConfirmed b c) := by
  unfold State.beaconConfirmed
  split
  · exact blocks_modDoor s b _
  · exact blocks_modDoor s b _
  all_goals exact .refl s

/-! ## Fuel (05) -/

theorem blocks_evaluateFuel (s : State) (b : Nat) : Blocks s (s.evaluateFuel b) := by
  refine blocks_onBay s b _ fun r _ => ?_
  dsimp only
  split
  · exact .refl s
  · exact (blocks_modFuel s b _).trans (blocks_post _ _ _ _)

theorem blocks_departureCheck (s : State) (b : Nat) : Blocks s (s.departureCheck b) := by
  refine blocks_onBay s b _ fun r _ => ?_
  split
  · split
    · dsimp only
      split
      · exact blocks_modFuel s b _
      · exact (blocks_modFuel s b _).trans (blocks_post _ _ _ _)
    · exact blocks_modFuel s b _
  · exact blocks_modFuel s b _

theorem blocks_overBays (f : Nat → State → State) (h : ∀ b s, Blocks s (f b s)) (s : State) :
    Blocks s (s.overBays f) := works_overBays PlanPart.refl PlanPart.trans f h s

theorem blocks_departureChecks (s : State) : Blocks s s.departureChecks := by
  refine blocks_overBays _ (fun b t => blocks_onBay t b _ fun r _ => ?_) s
  split
  · exact blocks_departureCheck t b
  · exact .refl t

theorem blocks_recomputeFuel (s : State) (b : Nat) : Blocks s (s.recomputeFuel b) := by
  refine blocks_onBay s b _ fun r _ => ?_
  dsimp only
  have h : Blocks s (s.modFuel b fun _ => r.recomputed) := blocks_modFuel s b _
  split
  · exact h.trans (blocks_departureCheck _ b)
  · exact (h.trans (blocks_evaluateFuel _ b)).trans (blocks_departureCheck _ b)

theorem blocks_reportFill (s : State) (b : Nat) (f : Fill) (w : Nat) : Blocks s (s.reportFill b f w) :=
  blocks_post s _ _ _

/-! ## Unit alarms (02) -/

theorem blocks_modeAlarm (s : State) (b : Nat) (m : Option UnitMode) : Blocks s (s.modeAlarm b m) := by
  refine blocks_onBay s b _ fun r _ => ?_
  split
  · exact .refl s
  · split
    · exact .refl s
    · exact (blocks_post s _ _ _).trans (blocks_modReadings _ b _)
  · exact blocks_modReadings s b _

theorem blocks_mismatchAlarm (s : State) (b : Nat) : Blocks s (s.mismatchAlarm b) := by
  refine blocks_onBay s b _ fun r _ => ?_
  split
  · exact (blocks_post s _ _ _).trans (blocks_modReadings _ b _)
  · exact .refl s

/-! ## Frost accrual (03) -/

theorem blocks_restartInterval (s : State) (b : Nat) (r : Bay) : Blocks s (s.restartInterval b r) :=
  blocks_modFrost s b _

theorem blocks_accrues (s : State) (b : Nat) (r : Bay) : Blocks s (s.accrues b r) := by
  unfold State.accrues
  dsimp only
  refine Blocks.trans (Blocks.trans ?_ (blocks_restartInterval _ b r)) (frosts_recomputeAndSelect _ b).blocks
  split
  · exact (blocks_modFrost s b _).trans (blocks_post _ _ _ _)
  · exact blocks_modFrost s b _

theorem blocks_accrualExpires (s : State) (b : Nat) : Blocks s (s.accrualExpires b) := by
  refine blocks_onBay s b _ fun r _ => ?_
  split
  all_goals first
    | exact blocks_accrues s b r
    | exact blocks_restartInterval s b r

theorem frosts_requestDefrost (s : State) (b : Nat) : Frosts s (s.requestDefrost b) := by
  refine frosts_onBay s b _ fun r _ => ?_
  refine Frosts.trans (Frosts.trans (Frosts.trans ?_ (frosts_recomputeAndSelect _ b)) (defrosts_clearRefusal _ b).frosts)
    (defrosts_selectIfQueued _ b).frosts
  exact frosts_modFrost s b _ fun _ => ⟨rfl, rfl, rfl⟩

/-! ## Door seconds (06 R120) -/

theorem blocks_doorSecond (s : State) (b : Nat) : Blocks s (s.doorSecond b) := by
  refine blocks_onBay s b _ fun r _ => ?_
  split
  · exact (blocks_modDoor s b _).trans (blocks_modFrost _ b _)
  · exact blocks_modFrost s b _

end Sys2Proof.Machine
end

