-- ==== Sys2Proof/Laws/Transactions.lean ====
section
/-!
SUPPORT. The end of a transaction: what it does on a port whose transaction a full reset abandoned and on any other, and
what a transaction shifts out (10 R183, R184, R201, 11 R205).
-/
namespace Sys2Proof.Machine

/-- The frame of an abandoned transaction is not taken (R201). -/
theorem takeFrame_abandoned {s : State} {p : Port} (h : (s.port p).abandoned = true) (act : State → State) :
    s.takeFrame p act = s.modPort p PortState.endTransaction := if_pos h

/-- Any other frame is taken (R183). -/
theorem takeFrame_taken {s : State} {p : Port} (h : (s.port p).abandoned = false) (act : State → State) :
    s.takeFrame p act = act s := by simp [State.takeFrame, h]

/-- A request of a transaction that was not abandoned is judged (R184). -/
theorem request_taken {α : Type} {s : State} {p : Port} (h : (s.port p).abandoned = false) (r : Request) (form : Option α)
    (act : α → State → State × Reply) : s.request p r form act = s.judge p r form act := takeFrame_taken h _

/-- A request of an abandoned transaction is not taken (R201). -/
theorem request_abandoned {α : Type} {s : State} {p : Port} (h : (s.port p).abandoned = true) (r : Request)
    (form : Option α) (act : α → State → State × Reply) :
    s.request p r form act = s.modPort p PortState.endTransaction := takeFrame_abandoned h _

/-- A request judged: NOT_PERMITTED, INVALID, or the owner's rule (R184 checks 3 and 4). -/
theorem judge_cases {α : Type} (s : State) (p : Port) (r : Request) (form : Option α) (act : α → State → State × Reply) :
    (requestPermitted r p = false ∧ s.judge p r form act = (s.frameTaken p).answer p (some r.code) ⟨.notPermitted, []⟩) ∨
    (requestPermitted r p = true ∧ form = none ∧
      s.judge p r form act = (s.frameTaken p).answer p (some r.code) ⟨.invalid, []⟩) ∨
    ∃ a, requestPermitted r p = true ∧ form = some a ∧
      s.judge p r form act = (act a (s.frameTaken p)).1.answer p (some r.code) (act a (s.frameTaken p)).2 := by
  cases hp : requestPermitted r p
  · exact .inl ⟨rfl, by simp [State.judge, hp, Reply.bare]⟩
  · cases form with
    | none => exact .inr (.inl ⟨rfl, rfl, by simp [State.judge, hp, withForm, Reply.bare]⟩)
    | some a => exact .inr (.inr ⟨a, rfl, rfl, by simp [State.judge, hp, withForm]⟩)

/-- Past the answer frame a transaction shifts out filler of 0 (R205). -/
theorem byteOut_filler {ps : PortState} (h : ps.inTransaction = true) {k : Nat} (hk : ps.shiftOut.length ≤ k) :
    ps.byteOut k = some 0 := by
  simp [PortState.byteOut, h, List.getElem?_eq_none hk]

/-- Within the answer frame it shifts out the frame's bytes, from the first (R183). -/
theorem byteOut_answer {ps : PortState} (h : ps.inTransaction = true) {k : Nat} (hk : k < ps.shiftOut.length) :
    ps.byteOut k = some ps.shiftOut[k] := by
  simp [PortState.byteOut, h, hk]

@[simp] theorem PortState.endTransaction_queue (ps : PortState) : ps.endTransaction.queue = ps.queue := rfl
@[simp] theorem PortState.endTransaction_attn (ps : PortState) : ps.endTransaction.attn = ps.attn := rfl
@[simp] theorem PortState.endTransaction_holder (ps : PortState) : ps.endTransaction.holder = ps.holder := rfl
@[simp] theorem PortState.endTransaction_number (ps : PortState) : ps.endTransaction.number = ps.number := rfl
@[simp] theorem PortState.endTransaction_inTransaction (ps : PortState) : ps.endTransaction.inTransaction = false := rfl
@[simp] theorem PortState.endTransaction_abandoned (ps : PortState) : ps.endTransaction.abandoned = false := rfl
@[simp] theorem PortState.endTransaction_shiftOut (ps : PortState) : ps.endTransaction.shiftOut = [] := rfl

end Sys2Proof.Machine
end

