-- ==== Sys2Proof/Tests/Slice0.lean ====
section
/-!
SUPPORT. Tests of one step each, with expected values from the spec's worked examples and tables, and for each statement
of Certificates/Slice0/Obligations.lean that has hypotheses a witness that meets them.
-/
set_option Elab.async false

namespace Sys2Proof.Tests
open Sys2Proof Sys2Proof.Machine

/-! ## Small states -/

/-- The state after a command; the state itself where it has none. -/
def out (c : Instr) (s : State) : State :=
  match exec c s with
  | .next t => t
  | .fault _ => s
  | .refused _ => s

/-- What stands in a port's answer holder. -/
def answered (p : Port) (s : State) : Option (AnswerCode × List Byte) := (s.port p).holder.map fun a => (a.code, a.results)

/-- A bay as a commit adds it under the yard values of R146. -/
def plainBay : Bay := Bay.added { row := 3, genset := 1, departure := none, overrides := Profile.empty } Yard.reset.settings 100000

/-- A PRESENT bay whose unit cools with its door shut. -/
def coolBay : Bay :=
  { plainBay with
    loop := { plainBay.loop with presence := .present, baseline := some 0 }
    readings := { plainBay.readings with unitClass := some .b, unitMode := some .cool, door := .closed, stale := false } }

/-- A bay in a defrost state. -/
def inState (d : DefrostState) : Bay := { coolBay with defrost := { coolBay.defrost with state := d } }

/-- A yard in RUN with the bays given. -/
def yard (bays : List (Nat × Bay)) : State := { State.reset with mode := .run, bays := bays }

/-- A yard whose main slot of a bay is in progress. -/
def slotted (b : Nat) (s : State) : State :=
  { s with slot := some { bay := b, watch := false, carried := none, num := 0, judged := false }, nextMain := some b }

/-- A class B reply frame: address, mode, door, source, echo, fuel, coil, return air, burn rate, fault. -/
def replyB (bay mode door source echo fuel : Byte) (coil returnAir : Int) (burn fault : Byte) : List Byte :=
  withCheck ([bay, 2, mode, door, source, echo, fuel, 0] ++ signed2 coil ++ signed2 returnAir ++ [burn, fault])

/-! ## Well-formed commands: each check refuses a term -/

theorem test_wf_short_reply : (Instr.replyReceived (List.replicate 14 0)).wf = false := by decide
theorem test_wf_bay_bounds : ∀ b ∈ [0, 128],
    (Instr.doorOpenSecond b).wf = false ∧ (Instr.accrualExpiry b).wf = false ∧ (Instr.defrostTimerExpiry b).wf = false ∧
      (Instr.dripTimerExpiry b).wf = false ∧ (Instr.graceTimerExpiry b).wf = false ∧ (Instr.leaseExpiry b).wf = false := by
  decide
theorem test_wf_known_codes : ∀ r ∈ Request.all, (Instr.unknownRequest .office r.code).wf = false := by decide
theorem test_wf_long_args : ∀ r ∈ Request.all, (r.toInstr .office (List.replicate 126 0)).wf = false := by decide +kernel
theorem test_wf_accepts : (Instr.doorOpenSecond 127).wf = true ∧ (Instr.unknownRequest .fuel 0).wf = true ∧
    (Instr.status .patrol []).wf = true := by decide

/-! ## Frames (11.1, 11.3) -/

/-- 11.1, worked check bytes. -/
theorem test_poll_check_bytes :
    Slot.pollFrame { bay := 41, watch := true, carried := some .startShore, num := 3, judged := false } = [165, 41, 1, 3, 45] ∧
      Slot.pollFrame { bay := 127, watch := false, carried := some .beaconOff, num := 2, judged := false }
        = [165, 127, 5, 2, 212] := by decide
/-- Frames written out by R205: length, code, arguments, check byte. -/
theorem test_decode_requests :
    decodeTransaction .fuel [3, 12, 240] = .eventFetch .fuel [] ∧
      decodeTransaction .fuel [5, 4, 51, 20, 175, 9, 9] = .claim .fuel [51, 20] ∧
      decodeTransaction .office [10, 24, 1, 28, 1, 0, 0, 0, 2, 189] = .stageYard .office [1, 28, 1, 0, 0, 0, 2] ∧
      decodeTransaction .patrol [4, 11, 0, 240] = .doorList .patrol [0] ∧
      decodeTransaction .office [4, 16, 1, 234] = .modeSet .office [1] := by decide
/-- R184 checks 1 and 2, R183. -/
theorem test_decode_refusals :
    decodeTransaction .fuel [3, 12, 241] = .badFrame .fuel ∧ decodeTransaction .fuel [2, 253] = .badFrame .fuel ∧
      decodeTransaction .fuel [5, 4, 51] = .badFrame .fuel ∧ decodeTransaction .fuel [3, 26, 226] = .unknownRequest .fuel 26 ∧
      decodeTransaction .fuel [] = .noByteTransaction .fuel := by decide

/-! ## Frost (chapter 3) -/

/-- Bay 52 of 3.2, at an expiry. -/
def bay52 (debt count seconds : Nat) (urgency : Urgency) (coil returnAir : Int) : State :=
  let r := inState .queued
  yard [(52, { r with
    settings := { r.settings with base := 3, maxIntervals := 12 }
    readings := { r.readings with coil := some coil, returnAir := some returnAir }
    loop := { r.loop with presence := .present }
    defrost := { r.defrost with refusal := true }
    frost := { r.frost with debt := debt, intervalCount := count, doorSeconds := seconds, urgency := urgency, accrualEnd := 0 } })]

/-- What FAU shows of a bay. -/
structure FrostView where
  debt : Nat
  urgency : Urgency
  count : Nat
  seconds : Nat
  overdue : Bool
  deriving DecidableEq

/-- Debt, level, interval count, accumulator, overdue mark of a bay. -/
def frostOf (b : Nat) (s : State) : Option FrostView :=
  (s.bay? b).map fun r => ⟨r.frost.debt, r.frost.urgency, r.frost.intervalCount, r.frost.doorSeconds, r.frost.overdue⟩

/-- 3.2, a busy door and a rising spread; both caps reached. -/
theorem test_accrual_worked :
    frostOf 52 (out (.accrualExpiry 52) (bay52 37 9 95 .eligible (-295) (-180))) = some ⟨45, .due, 10, 0, false⟩ ∧
      frostOf 52 (out (.accrualExpiry 52) (bay52 45 10 300 .due (-320) (-150))) = some ⟨61, .due, 11, 0, false⟩ := by
  decide +kernel
/-- 3.4, the maximum interval: 64 becomes F = 96. 3.2, worked saturation. -/
theorem test_accrual_limits :
    frostOf 52 (out (.accrualExpiry 52) (bay52 61 11 0 .due (-230) (-190))) = some ⟨96, .forced, 12, 0, true⟩ ∧
      addDebt 250 20 = 255 := by decide +kernel
/-- R58: a debt of 97 becomes 48. -/
theorem test_cancel_halves :
    (let s := yard [(9, { inState .running with frost := { plainBay.frost with debt := 97, urgency := .forced } })]
     (answered .office (out (.defrostCancel .office [9]) s), frostOf 9 (out (.defrostCancel .office [9]) s))) =
      (some (.done, [4, 48]), some ⟨48, .due, 0, 0, false⟩) := by decide +kernel
/-- R56: a debt below D = 40 is raised to it, and the bay joins the queue. -/
theorem test_request_raises :
    (let t := out (.defrostRequest .office [9]) { yard [(9, coolBay)] with yard := { Yard.reset with only :=
       { Yard.reset.only with slots := 0 } } }
     (answered .office t, t.queuedBays)) = (some (.done, [40, 2]), [9]) := by decide +kernel

/-! ## Fuel (chapters 2 and 5) -/

/-- 5.1, worked endurance figures: bays 7, 22, 63, 81, 94. -/
theorem test_endurance_worked :
    ([(some 37, 230, 31, 1), (some 100, 400, 3, 1), (some 62, 300, 0, 24), (some 0, 180, 40, 1), (none, 250, 35, 1)].map fun x =>
      let f := Bay.recomputed { plainBay with
        readings := { plainBay.readings with fuelLevel := x.1, burnRate := x.2.2.1 }
        settings := { plainBay.settings with capacity := x.2.1, burnEstimate := x.2.2.2 } }
      (f.endurance, f.estimated, f.saturated)) =
    [(some 1647, false, false), (some 65535, false, true), (some 4650, true, false), (some 0, false, false),
     (none, false, false)] := by decide +kernel
/-- 5.2, worked fuel states on one bay. -/
theorem test_fuel_states_worked :
    ([(FuelState.ok, some 1647), (.ok, some 470), (.low, some 110), (.critical, some 300), (.low, some 500),
      (.low, some 560), (.ok, none), (.unknown, some 490), (.ok, some 200)].map fun x => fuelGrade Yard.reset.settings x.1 x.2) =
    [.ok, .low, .critical, .low, .low, .ok, .unknown, .ok, .low] := by decide
/-- 2.3, worked decode of one class B reply: return air −1,900 is UNKNOWN, fuel 180 is 100, burn 0. -/
theorem test_class_b_reply_worked :
    (let r := { coolBay with readings := { coolBay.readings with fuelLevel := some 62, burnRate := 28 } }
     let t := out (.replyReceived (replyB 88 1 0 1 0 180 (-312) (-1900) 0 0)) (slotted 88 (yard [(88, r)]))
     (t.bay? 88).map fun r => (r.readings.coil, r.readings.returnAir, r.readings.fuelLevel, r.readings.burnRate, r.fuel.estimated)) =
    some (some (-312), none, some 100, 0, true) := by decide +kernel
/-- 5.3, worked departure check: need 690, 680, 670; and with the departure passed, 90. -/
theorem test_departure_need :
    [departureNeed Yard.reset.settings 1000600 1000000, departureNeed Yard.reset.settings 1000600 1000010,
      departureNeed Yard.reset.settings 1000600 1000020, departureNeed Yard.reset.settings 1000400 1000401]
      = [690, 680, 670, 90] := by decide
/-- 5.3: at minute 1,000,020 an endurance of 660 is short; the clock and DEPARTURE SET make the check. -/
theorem test_departure_set_and_clock :
    (let r := { coolBay with
        readings := { coolBay.readings with sourceInUse := .engine, reportedSource := .engine }
        fuel := { coolBay.fuel with endurance := some 660 } }
     let s := { yard [(14, r)] with clock := some 1000020, minuteEnd := some 0 }
     let t := out (.departureSet .office ([14, 1] ++ be4 1000600)) s
     let u := out (.departureSet .office ([14, 1] ++ be4 1000400)) t
     ((t.bay? 14).map fun r => r.fuel.short, (t.port .fuel).queue.map Event.kind, (u.bay? 14).map fun r => r.fuel.short,
      ((out .yardClockAdvance t).bay? 14).map fun r => r.fuel.short, (out .yardClockAdvance t).clock,
      ((out (.clockSet .office (be4 1000040)) t).bay? 14).map fun r => r.fuel.short)) =
    (some true, [.fuelShort], some false, some true, some 1000021, some false) := by decide +kernel

/-! ## Doors (chapter 6) -/

/-- Bay 73 of 6.6. -/
def bay73 (d : DoorState) (graceEnd : Option Nat) (openRun : Nat) (reading : DoorReading) : Bay :=
  { coolBay with
    settings := { coolBay.settings with doorGrace := 120 }
    readings := { coolBay.readings with door := reading }
    door := { coolBay.door with state := d, graceEnd := graceEnd, openRun := openRun, beaconConfirmed := some false } }

/-- What DCU shows of a bay. -/
structure DoorView where
  state : DoorState
  graceEnd : Option Nat
  openRun : Nat
  listEntry : Option Nat
  wanted : Bool
  deriving DecidableEq

/-- State, grace timer, open run, list entry, beacon wanted. -/
def doorOf (s : State) : Option DoorView :=
  (s.bay? 73).map fun r => ⟨r.door.state, r.door.graceEnd, r.door.openRun, r.door.listEntry, r.door.beaconWanted⟩

/-- 6.6, worked door, time 1,820: the grace expires. -/
theorem test_grace_worked :
    doorOf (out (.graceTimerExpiry 73) { yard [(73, bay73 .openTiming (some (1820 * 40)) 820 .opened)] with now := 1820 * 40 }) =
      some ⟨.ajar, none, 820, some 1820, true⟩ := by decide +kernel
/-- 6.6, times 1,000 and 1,090: OPEN without a claim, then the Fuel port's CLAIM. -/
theorem test_door_opens_and_claim :
    (let t := out (.replyReceived (replyB 73 1 1 1 0 50 0 0 9 0))
      { slotted 73 (yard [(73, bay73 .shut none 0 .closed)]) with now := 40000 }
     (doorOf t, doorOf (out (.claim .fuel [73, 0]) t))) =
    (some ⟨.openTiming, some (1120 * 40), 0, none, false⟩, some ⟨.openAttended, none, 0, none, false⟩) := by decide +kernel
theorem test_door_second :
    doorOf (out (.doorOpenSecond 73) (yard [(73, bay73 .ajar none 819 .opened)])) = some ⟨.ajar, none, 820, none, false⟩ ∧
      doorOf (out (.doorOpenSecond 73) (yard [(73, bay73 .shut none 5 .unknown)])) = some ⟨.shut, none, 5, none, false⟩ := by
  decide +kernel
/-- R45: an expiry counted the second, a reply of its last moment read the door closed; the next second of the open door counts. -/
theorem test_door_second_over :
    (let shut := { coolBay with frost := { coolBay.frost with secondCounted := true } }
     let opens := fun (r : Bay) => { r with readings := { r.readings with door := .opened } }
     let t := out (.doorOpenSecond 9) (yard [(9, shut)])
     ((t.bay? 9).map fun r => (r.frost.secondCounted, r.frost.doorSeconds),
      ((out (.doorOpenSecond 9) (t.modBay 9 opens)).bay? 9).map fun r => r.frost.doorSeconds)) =
    (some (false, 0), some 1) := by decide +kernel
theorem test_beacon_set :
    (let s := yard [(73, bay73 .ajar none 0 .opened)]
     (doorOf (out (.beaconSet .patrol [73, 1]) s), answered .patrol (out (.beaconSet .patrol [73, 2]) s),
      answered .fuel (out (.beaconSet .fuel [73, 1]) s), answered .office (out (.beaconSet .office [74, 1]) s))) =
    (some ⟨.ajar, none, 0, none, true⟩, some (.invalid, []), some (.notPermitted, []), some (.noSuchBay, [])) := by
  decide +kernel

/-! ## Claims (chapter 7) -/

/-- Bay 88 of 7.4: a FUEL claim with its start level. -/
def fuelClaim : State :=
  { (yard [(88, { coolBay with
      settings := { coolBay.settings with capacity := 230 }
      readings := { coolBay.readings with fuelLevel := some 61 } })]).modPort .fuel fun p => { p with claimCount := 4 } with
    now := 23800 * 40
    claims := [(88, { holder := .fuel, leaseMinutes := 30, leaseEnd := 23800, fillStart := some 4 })] }

/-- 7.4: 131 litres, start 4, end 61; 5.5: 201 litres. -/
theorem test_claim_release_worked :
    answered .fuel (out (.claimRelease .fuel [88]) fuelClaim) = some (.done, [1, 0, 131, 4, 61]) ∧
      answered .office (out (.claimRelease .office [88]) fuelClaim) = some (.noClaim, []) ∧
      litresAdded 300 (some 19) (some 86) = some 201 := by decide +kernel
/-- 7.4, time 23,800: CLAIM_EXPIRED and behind it FILL_REPORTED. -/
theorem test_lease_expiry_worked :
    (let t := out (.leaseExpiry 88) fuelClaim
     ((t.port .fuel).queue.map fun e => (e.kind, e.bay), t.claims, (t.port .fuel).claimCount)) =
      ([(.claimExpired, 88), (.fillReported, 88)], [], 3) := by decide +kernel
/-- 7.4, time 22,000: a renewal of 30 minutes sets the lease end to 23,800. -/
theorem test_claim_renew_worked :
    (let t := out (.claimRenew .fuel [88, 30]) { fuelClaim with now := 22000 * 40 }
     (answered .fuel t, (t.claimOf 88).map fun c => (c.leaseEnd, c.fillStart))) =
      (some (.done, [1, 30]), some (23800, some 4)) := by decide +kernel
/-- 7.4, worked refusals: INVALID, NO_SUCH_BAY, HELD. -/
theorem test_claim_refusals :
    [answered .office (out (.claim .office [88, 250]) fuelClaim), answered .fuel (out (.claim .fuel [0, 20]) fuelClaim),
      answered .office (out (.claim .office [88, 20]) fuelClaim)] =
    [some (.invalid, []), some (.noSuchBay, []), some (.held, [1, 1])] := by decide +kernel

/-! ## The loop (chapter 1) -/

/-- The yard of 1.2, worked round: the watch list 14, 5, 23, 9 with the cursor at 23. -/
def round (slot : Nat) (watch : Bool) (next : Option Nat) (list : List Nat) (cursor : Nat) : State :=
  { yard ([2, 5, 9, 14, 18, 23].map fun b => (b, coolBay)) with
    slot := some { bay := slot, watch := watch, carried := none, num := 0, judged := true }
    nextMain := next, watch := list, cursor := some cursor }

/-- 1.2, worked round: slots 2, 3, 6, 12 and the next round's first. -/
theorem test_slots_worked :
    [(out .pollSlotEnd (round 2 false (some 2) [14, 5, 23, 9] 23)).slotFor,
     (out .pollSlotEnd (round 9 true (some 5) [14, 5, 23, 9] 9)).slotFor,
     (out .pollSlotEnd (round 9 false (some 9) [14, 23, 9, 2] 2)).slotFor,
     (out .pollSlotEnd (round 23 false (some 23) [14, 23, 9, 2] 9)).slotFor,
     (out .pollSlotEnd (round 2 true none [14, 23, 9, 2] 2)).slotFor] =
    [some (9, true), some (5, false), some (14, true), some (2, true), some (2, false)] := by decide +kernel
/-- R12: the third miss makes the bay LOST. -/
theorem test_third_miss :
    (let s := slotted 41 (yard [(41, { coolBay with loop := { coolBay.loop with missCount := 2 } })])
     let t := out .pollSlotEnd s
     ((t.bay? 41).map fun r => (r.loop.presence, r.loop.missCount, r.readings.stale), (t.port .office).queue.map Event.kind)) =
    (some (.lost, 3, true), [.bayLost]) := by decide +kernel

/-! ## Defrosts (chapter 4) -/

/-- A bay of the worked sequence of 4.3. -/
def queuedBay (u : Urgency) (engine : Bool) (endurance : Option Nat) (reserve : Nat) : Bay :=
  let r := inState .queued
  { r with
    settings := { r.settings with defrostReserve := reserve }
    readings := { r.readings with sourceInUse := if engine then .engine else .shore }
    frost := { r.frost with urgency := u, debt := 50 }
    fuel := { r.fuel with endurance := endurance } }

/-- The yard of 4.3, worked sequence: S = 2, K = 3, M = 1, raise counter 2, in LISTEN. -/
def grants : State :=
  { yard [(7, queuedBay .urgent true (some 1647) 240), (12, queuedBay .eligible false none 240),
      (30, queuedBay .due false none 240), (45, queuedBay .due false none 240), (61, queuedBay .forced false none 240),
      (88, queuedBay .due true (some 95) 180), (95, queuedBay .urgent false none 240)] with
    mode := .listen
    yard := { Yard.reset with only := { Yard.reset.only with raisePeriod := 3 } }
    raiseCounter := 2
    now := 43000 * 40
    lastJoin := 7
    queue := [⟨12, 40112, 1⟩, ⟨30, 40390, 2⟩, ⟨7, 40905, 3⟩, ⟨45, 41230, 4⟩, ⟨61, 41602, 5⟩, ⟨88, 42017, 6⟩, ⟨95, 42350, 7⟩] }

/-- 4.3, worked sequence: MODE SET to RUN. -/
theorem test_grants_worked :
    (let t := out (.modeSet .office [1]) grants
     (t.slotHolders, t.raiseCounter, t.queuedBays, [61, 12, 7].map fun b => t.inDefrost b .granted,
      (t.port .fuel).queue.map fun e => (e.kind, e.bay))) =
    (2, 0, [30, 45, 88, 95], [true, true, true], [(.fuelBlocksDefrost, 88)]) := by decide +kernel
/-- A defrost record that holds a slot and whose timer has run out. -/
def timedOut (d : DefrostState) : DefrostRec :=
  { plainBay.defrost with state := d, slot := true, kind := some .shore, timer := .running 0 }

/-- A yard of one bay with that record. -/
def timedOutYard (d : DefrostState) : State :=
  { yard [(61, { inState d with defrost := timedOut d })] with slotHolders := 1 }

/-- R82: a RUNNING bay overruns and keeps its slot. R78: a GRANTED bay's timer is a start failure. -/
theorem test_defrost_timer :
    ((out (.defrostTimerExpiry 61) (timedOutYard .running)).bay? 61).map Bay.defrost =
        some { timedOut .running with state := .stopping, timer := .spent, want := some .stop } ∧
      ((out (.defrostTimerExpiry 61) (timedOutYard .granted)).bay? 61).map Bay.defrost =
        some { timedOut .granted with
          state := .drip, kind := none, timer := .absent, slot := false, startFailures := 1, dripEnd := some (5 * 60 * 40) } := by
  decide +kernel
/-- R85: at the end of the drip a debt at ELIGIBLE puts the bay at the queue's tail, NONE makes it CLEAR. -/
theorem test_drip_timer :
    (let r := inState .drip
     let d := { r.defrost with dripEnd := some 0, refusal := true }
     let s := yard [(9, { r with defrost := d, frost := { r.frost with debt := 24, urgency := .eligible } })]
     ((out (.dripTimerExpiry 9) s).queue, ((out (.dripTimerExpiry 9) (yard [(9, { r with defrost := d })])).bay? 9).map
       fun r => (r.defrost.state, r.defrost.dripEnd))) =
    ([⟨9, 0, 1⟩], some (.clear, none)) := by decide +kernel

/-! ## The plan (chapter 8) -/

/-- The staged plan of 8.1, worked resolution, with the bays of 8.3, worked commit attempts. -/
def attempt : State :=
  { yard [(40, inState .running)] with
    slotHolders := 2
    yard := { Yard.reset with only := { Yard.reset.only with slots := 3 } }
    staged :=
      { yard := { Yard.reset with only := { Yard.reset.only with slots := 1 } }
        rows := (Plan.reset.rows.set 3 { Profile.empty with base := some 3, maxIntervals := some 12, doorGrace := some 120 }).set 5
          { Profile.empty with hysteresis := some 300 }
        bays := [(17, ⟨3, 1, none, { Profile.empty with due := some 20 }⟩),
                 (52, ⟨3, 1, none, { Profile.empty with capacity := some 230, doorGrace := some 240 }⟩)] } }

/-- 8.1, worked resolution. -/
theorem test_resolution_worked :
    attempt.staged.bays.map (fun p =>
      [SettingField.ai, .base, .eligible, .due, .urgent, .forced, .maxIntervals, .capacity, .doorGrace].map
        (attempt.staged.resolve p.2).get) =
    [[10, 3, 24, 20, 64, 96, 12, 200, 120], [10, 3, 24, 40, 64, 96, 12, 230, 240]] := by decide +kernel
/-- 8.3, worked commit attempts: the five answers, each after the staging request before it. -/
theorem test_commit_attempts_worked :
    (let commit := fun s => answered .office (out (.planCommit .office []) s)
     let s1 := attempt
     let s2 := out (.stageYard .office [1, 28, 1, 0, 0, 0, 2]) s1
     let s3 := out (.stageRow .office [5, 1, 22, 1, 0, 0, 0, 200]) s2
     let s4 := out (.stageBay .office [17, 1, 12, 0, 0, 0, 0, 0]) s3
     let s5 := out (.stageBay .office [40, 2, 1, 1, 0, 0, 0, 2, 2, 1, 0, 0, 0, 1]) s4
     [commit s1, commit s2, commit s3, commit s4, commit s5]) =
    [some (.slotsInUse, [0, 0, 28]), some (.invalid, [1, 5, 22]), some (.invalid, [2, 17, 12]), some (.bayInDefrost, [2, 40, 0]),
     some (.done, [0, 1, 1])] := by decide +kernel
theorem test_stage_drop_and_clear :
    (let t := out (.stageDrop .office [52]) attempt
     (keysOf t.staged.bays, answered .office (out (.stageDrop .office [60]) attempt),
      keysOf (out (.stageClear .office []) attempt).staged.bays)) = ([17], some (.noSuchBay, []), [40]) := by decide +kernel

/-! ## Shedding and silence (chapter 9) -/

/-- 9.3, worked shed period: times 1,000, 1,700 and 1,910.5. -/
theorem test_shed_worked :
    (let s := { yard [] with now := 1000 * 40 }
     let a := out (.shedLineChange true) s
     let d := out .dwellTimerExpiry { s with
       now := 1700 * 40, shed := .shed, dwell := .running (1700 * 40), releaseSeen := true, filtered := false }
     let g := out .restartGapExpiry { d with now := 1710 * 40 }
     (a.filterEnd, (out .shedFilterExpiry { a with now := a.now + 20 }).shed, d.shed, d.gapEnd, g.shed,
      (g.port .office).queue.map Event.kind)) =
    (some (1000 * 40 + 20), .shed, .restart, some (1710 * 40), .normal, [.shedLeft]) := by decide +kernel

/-- The yard of 9.5, worked silence, at 5,120. -/
def silent : State :=
  { yard [] with
    now := 5120 * 40
    silence := .watching
    silenceTimer := some ⟨5120 * 40, 120⟩
    yard := { Yard.reset with only := { Yard.reset.only with silenceLimit := 120 } } }

/-- 9.5, worked silence and recovery: times 5,120 and 5,304. -/
theorem test_silence_worked :
    (let t := out .silenceTimerExpiry silent
     ((t.silence, t.savedMode, t.mode), t.silenceTimer, (t.port .patrol).queue.map Event.kind,
      answered .office (out (.modeSet .office [1]) t))) =
    ((.silent, some .run, .fallback), none, [.officeSilent], some (.wrongMode, [])) := by decide +kernel
/-- 9.5, time 5,306. -/
theorem test_resume_worked :
    (let t := out (.resume .office []) { out .silenceTimerExpiry silent with now := 5306 * 40 }
     ((t.silence, t.savedMode, t.mode), t.silenceTimer, answered .office t)) =
    ((.watching, none, .run), some ⟨5426 * 40, 120⟩, some (.done, [1])) := by decide +kernel
/-- 9.5: a LOOP RESET ends SILENT with the mode LISTEN. -/
theorem test_loop_reset_ends_silence :
    (let t := out (.loopReset .office []) (out .silenceTimerExpiry silent)
     (t.mode, t.silence, t.savedMode, answered .office t)) = (.listen, .watching, none, some (.done, [2, 0, 0])) := by
  decide +kernel

/-! ## Ports and events (chapter 10) -/

/-- 10.1, worked transactions: a bad frame, DOOR LIST on the Fuel port, a transaction of no byte. -/
theorem test_transactions_worked :
    (let s := (yard []).modPort .fuel fun p => { p with number := 15 }
     let a := out (.badFrame .fuel) s
     let b := out (.doorList .fuel [0]) (out (.transactionBegin .fuel) a)
     let c := out (.noByteTransaction .fuel) (out (.transactionBegin .fuel) b)
     ((a.port .fuel).holder.map fun x => (x.code, x.number), (out (.transactionBegin .fuel) a).ports.fuel.shiftOut,
      (b.port .fuel).holder.map fun x => (x.code, x.number), (c.port .fuel).number, (c.port .fuel).inTransaction)) =
    (some (.badFrame, 16), [5, 16, 0, 2, 232], some (.notPermitted, 17), 17, false) := by decide +kernel
/-- R183, R205: after the five bytes of an empty answer the filler goes out. -/
theorem test_filler :
    (let s := out (.transactionBegin .fuel) (yard [])
     (List.range 8).map fun k => (s.port .fuel).byteOut k) = [5, 0, 0, 0, 250, 0, 0, 0].map some := by decide +kernel
/-- R201: the request of a transaction that a full reset abandoned is not taken, the next one is. -/
theorem test_abandoned_transaction :
    (let s := out .fullReset (out (.transactionBegin .fuel) (yard []))
     let t := out (.attnSet .fuel [1, 1]) s
     ((t.port .fuel).holder, (t.port .fuel).mask, answered .fuel (out (.attnSet .fuel [1, 1]) t))) =
    (none, 0, some (.done, [0])) := by decide +kernel
/-- R184 check 2. -/
theorem test_unknown_request :
    answered .patrol (out (.unknownRequest .patrol 99) (yard [])) = some (.unknownRequest, [99]) := by decide +kernel

/-- An event as a home posting makes it. -/
def event (k : EventKind) (b : Nat) : Event := { kind := k, bay := b, time := none, count := 1, detail := [], mirrored := false }

/-- The yard of 10.2, worked queues: 31 entries, the oldest a DOOR_AJAR of bay 41, and mirror rule 0. -/
def mirrored : State :=
  { ((yard []).modPort .patrol fun p => { p with queue := event .doorAjar 41 :: (List.range 30).map fun i => event .doorShut (i + 80) })
      |>.modPort .office (fun p => { p with classCount := .two, mask := 1 }) with
    mirrors := [some { source := .patrol, first := 60, last := 79, classes := 1, dest := .office }, none, none, none] }

/-- 10.2, worked queues: the Patrol queue's length and mark, the Office queue and line, after each event. -/
theorem test_queues_worked :
    (let a := mirrored.post .doorAjar 73 []
     let b := a.post .doorSwitchFault 9 []
     let c := b.post .doorAjar 41 []
     let d := out (.eventFetch .patrol []) c
     [a, b, c, d, d.post .doorShut 73 []].map fun s =>
       ((s.port .patrol).queue.length, (s.port .patrol).overflow, (s.port .office).queue.map Event.kind, (s.port .office).attn)) =
    [(32, false, [.doorAjar], true), (32, true, [.doorAjar], true), (32, true, [.doorAjar], true), (31, true, [.doorAjar], true),
      (32, true, [.doorAjar, .doorShut], true)] := by decide +kernel
/-- 10.2: the fetch from Patrol returns DOOR_AJAR 41 with count 2 and the mark set, 31 left. -/
theorem test_event_fetch_worked :
    (let s := ((mirrored.post .doorAjar 73 []).post .doorSwitchFault 9 []).post .doorAjar 41 []
     (answered .patrol (out (.eventFetch .patrol []) s)).map fun x => [x.2.take 2, (x.2.drop 6).take 1, x.2.drop 20]) =
    some [[1, 41], [2], [1, 31]] := by decide +kernel
/-- R189, R190: under count 2 an alarm entry is class 0; a class the count does not have is INVALID. -/
theorem test_attn_set :
    (let s := mirrored.post .doorAjar 73 []
     [answered .office (out (.attnSet .office [2, 1]) s), answered .office (out (.attnSet .office [2, 2]) s),
      answered .office (out (.attnSet .office [2, 4]) s), answered .office (out (.attnSet .office [3, 1]) s)]) =
    [some (.done, [1]), some (.done, [0]), some (.invalid, []), some (.invalid, [])] := by decide +kernel
theorem test_mirror_set :
    (let s := yard []
     (answered .office (out (.mirrorSet .office [0, 1, 2, 60, 79, 1, 2]) s), (out (.mirrorSet .office [3, 1, 2, 60, 79, 9, 1]) s).mirrors,
      (out (.mirrorSet .office [0, 0, 9, 9, 9, 9, 9]) mirrored).mirrors)) =
    (some (.invalid, []), [none, none, none, some { source := .patrol, first := 60, last := 79, classes := 9, dest := .fuel }],
     [none, none, none, none]) := by decide +kernel
/-- R199, 11.5: 17 bytes. -/
theorem test_status :
    answered .office (out (.status .office []) grants) =
      some (.done, [2, 0, 0, 0, 0, 0, 0, 7, 0, 0, 0, 0, 0, 0, 0, 0, 0]) := by decide +kernel
/-- 11.5: 61 bytes, the address, the row and the claim's bytes. -/
theorem test_bay_read :
    ((answered .office (out (.bayRead .office [88]) { fuelClaim with now := 23700 * 40 })).map fun x =>
      (x.1, x.2.length, x.2.take 2, x.2.drop 56)) = some (.done, 61, [88, 3], [1, 1, 0, 100, 4]) := by decide +kernel
/-- R198: the entry is its bay, entry time, urgency, kind and flags. -/
theorem test_queue_read :
    answered .office (out (.queueRead .office [6]) { grants with mode := .run }) =
      some (.done, [7, 1, 95, 0, 0, 165, 110, 3, 1, 1]) := by decide +kernel
/-- R106, R123: a bay on each list. -/
theorem test_lists :
    (let r := { coolBay with
        fuel := { coolBay.fuel with endurance := some 100, state := .critical }
        door := { coolBay.door with state := .ajar, listEntry := some 10, openRun := 300 } }
     let s := { yard [(6, r)] with now := 50 * 40 }
     (answered .patrol (out (.doorList .patrol [0]) s), (answered .fuel (out (.fuelList .fuel [0]) s)).map fun x => x.2.take 8)) =
    (some (.done, [1, 1, 6, 3, 0, 40, 1, 44, 0, 2, 1, 0]), some [1, 1, 6, 3, 0, 100, 255, 1]) := by decide +kernel
/-- R201, R167: the line asserted at a full reset. -/
theorem test_full_reset :
    (let t := out .fullReset { mirrored with shedLine := true, now := 400 }
     (t.mode, t.shed, t.dwell, (t.port .office).queue.map Event.kind, (t.port .office).attn, (t.port .patrol).queue)) =
    (.halt, .shed, .running 2800, [.shedEntered], false, []) := by decide +kernel

/-! ## Witnesses: for each statement with hypotheses, a state and operands that meet them -/

/-- The record found under an address is the one that stands there. -/
theorem found {s : State} {b : Nat} {r r' : Bay} (h : s.bay? b = some r) (h' : s.bay? b = some r') : r' = r :=
  Option.some.inj (h'.symm.trans h)

/-- A bay with every timer running to count 100. -/
def timedBay : Bay :=
  { coolBay with
    frost := { coolBay.frost with accrualEnd := 100 }
    defrost := { coolBay.defrost with timer := .running 100, dripEnd := some 100 }
    door := { coolBay.door with graceEnd := some 100 } }

/-- A yard with every timer running to count 100, at a count. -/
def timed (now : Nat) : State :=
  { yard [(9, timedBay)] with
    now := now, minuteEnd := some 100, filterEnd := some 100, dwell := .running 100, gapEnd := some 100
    silenceTimer := some ⟨100, 10⟩
    claims := [(9, { holder := .fuel, leaseMinutes := 1, leaseEnd := 3, fillStart := none })] }

theorem witness_TimersComeDueOnTheTimebase :
    ((timed 99).pending = [] ∧ Rising (timed 99).bays ∧ Rising (timed 99).claims) ∧
      (∀ r, (timed 99).bay? 9 = some r → (timed 99).now < r.frost.accrualEnd) ∧
      (∀ r e, (timed 99).bay? 9 = some r → r.defrost.timer = .running e → (timed 99).now < e) ∧
      (∀ r e, (timed 99).bay? 9 = some r → r.defrost.dripEnd = some e → (timed 99).now < e) ∧
      (∀ r e, (timed 99).bay? 9 = some r → r.door.graceEnd = some e → (timed 99).now < e) ∧
      (∀ c, (timed 99).claimOf 9 = some c → (timed 99).now / 40 < c.leaseEnd) ∧
      (∀ e, (timed 99).minuteEnd = some e → (timed 99).now < e) ∧ (∀ e, (timed 99).filterEnd = some e → (timed 99).now < e) ∧
      (∀ e, (timed 99).dwell = .running e → (timed 99).now < e) ∧ (∀ e, (timed 99).gapEnd = some e → (timed 99).now < e) ∧
      (∀ x, (timed 99).silenceTimer = some x → (timed 99).now < x.deadline) ∧
      (timed 99).bay? 8 = none ∧
      ∀ r, (timed 99).bay? 9 = some r → r.readings.door ≠ .opened ∧ r.frost.secondCounted = false := by
  have h9 : (timed 99).bay? 9 = some timedBay := rfl
  refine ⟨by decide, fun r h => ?_, fun r e h h' => ?_, fun r e h h' => ?_, fun r e h h' => ?_, fun c h => ?_, fun e h => ?_,
    fun e h => ?_, fun e h => ?_, fun e h => ?_, fun x h => ?_, rfl, fun r h => ?_⟩
  all_goals first | (obtain rfl := found h9 h) | skip
  all_goals first | decide | (cases h'; decide) | (cases h; decide)

theorem witness_FullResetEmptiesThePartAndSamplesShed : State.reset.shedLine = false ∧ ({ State.reset with shedLine := true } : State).shedLine = true := by decide

theorem witness_LoopResetStartsTheLoopAfresh :
    (grants.Takes .office ∧ grants.commitPending = false ∧ silent.Takes .office ∧ silent.commitPending = false) ∧
      ∀ d, (yard [(9, inState d)]).bay? 9 = some (inState d) ∧ 9 ∉ (yard [(9, inState d)]).queuedBays :=
  ⟨by decide, fun d => ⟨rfl, by simp [yard, State.queuedBays, State.reset]⟩⟩

/-- R79, R87, R88: a loop reset sends a GRANTED bay back to its kept place and turns a RUNNING bay to UNKNOWN with its slot. -/
theorem test_loop_reset_records :
    (let g := inState .granted
     let r := inState .running
     let s := { yard [(5, { g with frost := { g.frost with urgency := .due }, defrost := { g.defrost with kept := some (7, 2) } }),
                      (9, { r with defrost := { r.defrost with slot := true, kind := some .shore, timer := .running 900 } })] with
       queue := [⟨6, 8, 3⟩], lastJoin := 3, slotHolders := 1 }
     let t := out (.loopReset .office []) s
     (t.queue, (t.bay? 9).map fun r => (r.defrost.state, r.defrost.slot, r.defrost.timer))) =
    ([⟨5, 7, 2⟩, ⟨6, 8, 3⟩], some (.unknown, true, .running 900)) := by decide +kernel

/-- A yard reset while the Fuel port's master has a transaction under way. -/
def abandoning : State := out .fullReset (out (.transactionBegin .fuel) mirrored)

theorem witness_TransactionsWithoutARequest :
    (mirrored.port .fuel).inTransaction = false ∧ ((out (.transactionBegin .fuel) mirrored).port .fuel).inTransaction = true ∧
      mirrored.Takes .fuel ∧ ¬ abandoning.Takes .fuel := by decide +kernel

theorem witness_EveryRequestIsAnsweredOnItsPort : mirrored.Takes .fuel ∧ ¬ abandoning.Takes .fuel := by decide +kernel

theorem witness_RequestsAreCheckedForPortThenForm :
    (mirrored.Takes .fuel ∧ mirrored.Takes .patrol ∧ mirrored.Takes .office) ∧ (Port.fuel = .fuel ∧ Request.doorList ∉ [Request.attnSet, .bayRead, .claim, .claimRelease, .claimRenew, .eventFetch, .fuelList,
        .status]) ∧
      (Port.patrol = .patrol ∧ Request.fuelList ∉ [Request.attnSet, .bayRead, .beaconSet, .claim, .claimRelease, .claimRenew,
        .doorList, .eventFetch, .status]) ∧
      MalformedArgs .claim [51] ∧ MalformedArgs .departureSet [9, 2, 0, 0, 0, 0] ∧ MalformedArgs .stageYard [2, 28, 1, 0, 0, 0, 2] ∧
      MalformedArgs .stageRow [3, 1, 5, 2, 0, 0, 0, 2] :=
  ⟨by decide, by decide, by decide, .inl ⟨2, rfl, by decide⟩, .inr (.inl (by decide)), .inr (.inr ⟨0, rfl, .inl (by decide)⟩),
    .inr (.inr ⟨1, rfl, .inr ⟨0, by decide, by decide⟩⟩)⟩

theorem witness_DecodeOfEncodedRequest : (List.replicate 125 (0 : Byte)).length ≤ 125 := by decide +kernel

theorem witness_PostingsAreTakenAndMirrored :
    (let q := (mirrored.port .patrol).queue
     let full := q ++ [event .doorAjar 73]
     (∃ old ∈ q, old.kind = .doorAjar ∧ old.bay = 41) ∧ (∀ old ∈ q, ¬(old.kind = .doorAjar ∧ old.bay = 73)) ∧ q.length < 32 ∧
       (∀ old ∈ full, ¬(old.kind = .doorAjar ∧ old.bay = 9)) ∧ 32 ≤ full.length ∧
       (∃ m, some m ∈ mirrored.mirrors ∧ m.dest = .office ∧ m.source = .patrol ∧ m.first ≤ 73 ∧ 73 ≤ m.last ∧
         m.classes.getLsbD EventKind.doorAjar.cls.bit = true)) := by
  refine ⟨⟨event .doorAjar 41, ?_, ?_⟩, ?_, ?_, ?_, ?_, ⟨{ source := .patrol, first := 60, last := 79, classes := 1, dest := .office }, ?_⟩⟩
  all_goals decide +kernel

theorem witness_EventFetchAttnSetAndMirrorSetActOnTheRouter :
    (mirrored.Takes .fuel ∧ (mirrored.port .fuel).queue = []) ∧
      (mirrored.Takes .patrol ∧ ∃ rest, (mirrored.port .patrol).queue = event .doorAjar 41 :: rest) ∧ mirrored.Takes .office ∧
      ((1 : Byte) = 1 ∧ (1 : Byte).toNat < 2) ∧ ((2 : Byte) = 2 ∧ (3 : Byte).toNat < 4) ∧ ((4 : Byte) = 4 ∧ (15 : Byte).toNat < 16) ∧
      (∀ x ∈ [((1, 2) : Byte × Byte), (2, 4), (4, 16), (3, 0), (0, 0)], ¬(x.1 = 1 ∧ x.2.toNat < 2 ∨ x.1 = 2 ∧ x.2.toNat < 4 ∨
        x.1 = 4 ∧ x.2.toNat < 16)) ∧
      ((2 : Byte) = byteOf (portCode .patrol) ∧ (0 : Byte) = byteOf (portCode .office) ∧ Port.patrol ≠ .office ∧
        (60 : Byte).toNat ≤ (127 : Byte).toNat ∧ (127 : Byte).toNat ≤ 127 ∧ 0 < (15 : Byte).toNat ∧ (15 : Byte).toNat ≤ 15) ∧
      3 < (4 : Byte).toNat ∧ 2 < (3 : Byte).toNat ∧ 127 < (128 : Byte).toNat ∧ 15 < (16 : Byte).toNat :=
  ⟨⟨rfl, rfl⟩, ⟨rfl, _, rfl⟩, rfl, by decide, by decide, by decide, by simp, by decide, by decide, by decide, by decide, by decide⟩

theorem witness_EveryStepKeepsThePorts : ∃ s t : State, s.PortsOk ∧ step s = .next t ∧ (s.port .patrol).queue ≠ [] :=
  ⟨{ mirrored with pending := [.eventFetch .patrol []] }, _,
    fun p => by
      cases p <;> exact ⟨by decide +kernel, by decide +kernel, by decide +kernel, by decide +kernel, by decide +kernel, by decide⟩,
    rfl, by decide⟩

theorem witness_StatusReturnsThePartWideState : ∀ p, mirrored.Takes p := fun p => by cases p <;> rfl

/-- A staging list of a number of settings of one field code. -/
def settings (n : Nat) (code : Byte) : List Byte := (List.replicate n [code, 1, 0, 0, 0, 2]).flatten

/-- One staging setting read back. -/
def setTo (f : PlanField) (v : Nat) : StageSetting := { field := some f, value := some v }

theorem witness_StageYardSetsTheNamedFields :
    attempt.Takes .office ∧ countedSettings (1 :: settings 1 28) = some [setTo (.yardOnly .slots) 2] ∧ attempt.commitPending = false ∧
      ({ attempt with commitPending := true } : State).commitPending = true ∧ countedSettings [0] = some [] ∧
      (countedSettings (17 :: settings 17 28)).map List.length = some 17 ∧
      countedSettings [1, 28, 0, 0, 0, 0, 0] = some [{ field := some (.yardOnly .slots), value := none }] ∧
      countedSettings (1 :: settings 1 3) = some [setTo .departure 2] ∧
      countedSettings (1 :: settings 1 42) = some [{ field := none, value := some 2 }] ∧
      countedSettings (2 :: settings 2 28) = some [setTo (.yardOnly .slots) 2, setTo (.yardOnly .slots) 2] := by decide +kernel

theorem witness_StageRowSetsTheNamedFields :
    attempt.Takes .office ∧ ({ attempt with commitPending := true } : State).commitPending = true ∧
      attempt.staged.rows.length = 8 ∧ attempt.commitPending = false ∧
      namedSettings (7 :: 1 :: settings 1 5) = some (7, [setTo (.setting .base) 2]) ∧
      namedSettings (8 :: 1 :: settings 1 5) = some (8, [setTo (.setting .base) 2]) ∧ namedSettings [0, 0] = some (0, []) ∧
      (namedSettings (0 :: 17 :: settings 17 5)).map (fun x => x.2.length) = some 17 ∧
      namedSettings (0 :: 1 :: settings 1 28) = some (0, [setTo (.yardOnly .slots) 2]) ∧
      namedSettings (0 :: 2 :: settings 2 5) = some (0, [setTo (.setting .base) 2, setTo (.setting .base) 2]) := by decide +kernel

theorem witness_StageBayMakesOrEditsTheRecord :
    attempt.Takes .office ∧ attempt.commitPending = false ∧
      namedSettings (127 :: 2 :: (settings 1 1 ++ settings 1 2)) = some (127, [setTo .row 2, setTo .genset 2]) ∧
      findKey 127 attempt.staged.bays = none ∧ (findKey 17 attempt.staged.bays).isSome = true ∧
      valueNamed .row [setTo .row 2, setTo .genset 2] ≠ none ∧ valueNamed .genset [setTo .row 2, setTo .genset 2] ≠ none ∧
      namedSettings (17 :: 1 :: settings 1 5) = some (17, [setTo (.setting .base) 2]) ∧
      valueNamed .row [setTo (.setting .base) 2] = none ∧ namedSettings (128 :: 1 :: settings 1 5) = some (128, [setTo (.setting .base) 2]) ∧
      namedSettings (0 :: 1 :: settings 1 5) = some (0, [setTo (.setting .base) 2]) ∧
      namedSettings (1 :: 1 :: settings 1 28) = some (1, [setTo (.yardOnly .slots) 2]) ∧
      namedSettings [1, 1, 1, 0, 0, 0, 0, 0] = some (1, [{ field := some .row, value := none }]) := by decide +kernel

theorem witness_StageDropAndClearEditTheStagedPlan :
    attempt.Takes .office ∧ attempt.commitPending = false ∧ findKey (60 : Byte).toNat attempt.staged.bays = none ∧
      (findKey (52 : Byte).toNat attempt.staged.bays).isSome = true := by decide

theorem witness_CommitScanAdmitsExactlyTheValidPlans : attempt.AddressesOk ∧ attempt.FormOk ∧ grants.AddressesOk ∧ grants.FormOk :=
  ⟨⟨by decide, by decide⟩, ⟨by decide, by decide, by decide⟩, ⟨by decide, by decide⟩, ⟨by decide, by decide, by decide⟩⟩

/-- A staged plan of two bays under the yard values of R146. -/
def emptyRow : Plan :=
  { Plan.reset with bays := [(17, ⟨0, 1, none, Profile.empty⟩), (52, ⟨7, 0, none, Profile.empty⟩)] }

theorem witness_PlanCommitIsRefusedPendingOrApplied :
    attempt.Takes .office ∧ State.reset.Takes .office ∧ (slotted 9 (yard [(9, coolBay)])).Takes .office ∧
      attempt.commitPending = false ∧ attempt.commitFailure = some ⟨.slotsInUse, 0, 0, 28⟩ ∧ State.reset.commitFailure = none ∧
      State.reset.slot = none ∧ (slotted 9 (yard [(9, coolBay)])).commitFailure = none ∧
      (slotted 9 (yard [(9, coolBay)])).slot.isSome = true ∧ ({ attempt with commitPending := true } : State).commitPending = true ∧
      ({ State.reset with generation := 65535, staged := attempt.staged } : State).generation = 65535 ∧
      (({ yard [] with staged := emptyRow } : State).commitFailure = none ∧ (yard []).mode ≠ .halt ∧ (yard []).slot = none ∧
        (keysOf emptyRow.bays).head? = some 17) := by decide +kernel

/-- R6, R157: a commit that gives the empty plan of a running loop its first bays begins a round at the lowest address. -/
theorem test_commit_begins_a_round :
    (let t := out (.planCommit .office []) { yard [] with staged := emptyRow }
     (t.generation, t.slotFor, t.nextMain)) = (1, some (17, false), some 17) := by decide +kernel

/-- R154 to R156, 8.3: the first failing check of the scan. -/
theorem test_scan_finds_the_first : (attempt.scanChecks.find? Prod.snd).map Prod.fst = some ⟨.slotsInUse, 0, 0, 28⟩ := by
  decide +kernel

/-- The end of the round's last slot, with a plan pending that drops bay 9 and adds bays 17 and 52. -/
def ending : State :=
  { slotted 9 (yard [(9, coolBay)]) with
    slot := some { bay := 9, watch := false, carried := none, num := 0, judged := true }
    commitPending := true, marked := [9], staged := attempt.staged }

/-- The slot of bay 9's reply. -/
def slot9 : Slot := { bay := 9, watch := false, carried := none, num := 0, judged := false }

/-- That slot before its reply. -/
def unanswered : State := { ending with slot := some slot9 }

/-- The same in the office's silence with the HALT action, between the rounds. -/
def silentEnding : State :=
  { ending with
    now := 5120 * 40, slot := none, silence := .watching, silenceTimer := some ⟨5120 * 40, 120⟩
    yard := { Yard.reset with only := { Yard.reset.only with silenceLimit := 120, silenceAction := 1 } } }

theorem witness_PendingCommitsAreAppliedWhenTheRoundEnds :
    (∃ sl, ending.slot = some sl ∧ ending.commitPending = true ∧ sl.judged = true ∧ ending.RoundEnds sl) ∧
      (({ ending with mode := .halt, roundEnding := true } : State).roundEnding = true ∧
        ({ ending with mode := .halt, roundEnding := true } : State).commitPending = true) ∧
      (ending.Takes .office ∧ ending.silence ≠ .silent ∧ ending.mode ≠ .halt ∧ ending.slot.isSome = true) ∧
      (silentEnding.Takes .office ∧ silentEnding.silence ≠ .silent ∧ silentEnding.mode ≠ .halt ∧ silentEnding.slot = none) ∧
      silentEnding.silenceTimer = some ⟨5120 * 40, 120⟩ ∧ 5120 * 40 ≤ silentEnding.now ∧ silentEnding.silence = .watching ∧
      silentEnding.commitPending = true ∧ silentEnding.yard.only.silenceAction ≠ 0 :=
  ⟨⟨_, rfl, rfl, rfl, .inr (.inr ⟨rfl, rfl, by decide⟩)⟩, by decide +kernel⟩

/-- The same round's end with no reply in its last slot. -/
theorem witness_PendingCommitsAreAppliedAfterASilentSlot :
    ∃ u, unanswered.slot = some slot9 ∧ slot9.judged = false ∧ unanswered.commitPending = true ∧
      BadReply (List.replicate 15 0) slot9 ∧ exec (.replyReceived (List.replicate 15 0)) unanswered = .next u ∧
      u.RoundEnds slot9 :=
  ⟨_, rfl, rfl, rfl, ⟨by decide, .inl (by decide)⟩, rfl, .inr (.inr ⟨rfl, by decide +kernel, by decide +kernel⟩)⟩

/-- 1.2, R159: what that end of a slot leaves: the new plan's bays, the dropped one announced, a round begun at bay 17. -/
theorem test_pending_commit :
    (let t := out .pollSlotEnd ending
     (t.addresses, t.commitPending, t.generation, t.slotFor, (t.port .office).queue.map Event.kind)) =
    ([17, 52], false, 1, some (17, false), [.planApplied]) := by decide +kernel

theorem witness_EveryStepKeepsThePlans :
    ∃ s t : State, s.FormOk ∧ s.AddressesOk ∧ s.SettingsOk ∧ s.addresses = [40] ∧ step s = .next t :=
  ⟨{ attempt with pending := [.stageDrop .office [52]] }, _, ⟨by decide, by decide, by decide⟩, ⟨by decide, by decide⟩,
    ⟨fun p hp => by
      simp only [attempt, yard, List.mem_singleton] at hp
      subst hp
      exact ⟨⟨by decide, by decide, by decide⟩, by decide⟩, fun h => by simp [attempt, yard, State.reset] at h⟩, rfl, rfl⟩

/-- A bay with debt, misses, endurance and open run at the ends of their ranges. -/
def fullBay : Bay :=
  { coolBay with
    loop := { coolBay.loop with missCount := 255, flight := some ⟨.stop, 1, 255⟩ }
    frost := { coolBay.frost with debt := 255, doorSeconds := 3600, intervalCount := 255, accrualEnd := 0 }
    fuel := { coolBay.fuel with endurance := some 65535 }
    door := { coolBay.door with openRun := 65535 } }

theorem fullBay_inRange : fullBay.InRange where
  missCount := by decide
  sends := fun f h => by cases h; decide
  doorUnknownRun := by decide
  invalidFuelRun := by decide
  fuelLevel := nofun
  coil := nofun
  returnAir := nofun
  burnRate := by decide
  mismatchGen := by decide
  faultCode := nofun
  debt := by decide
  doorSeconds := by decide
  intervalCount := by decide
  checkCount := by decide
  startFailures := by decide
  endurance := fun e h => by cases h; decide
  openRun := by decide

/-- The yard values of R146 with one bay of an empty record lie in their ranges. -/
theorem plain_inRange : ({ Plan.reset with bays := [(9, fullBay.entry)] } : Plan).InRange where
  yard := ⟨by unfold Settings.InRange; decide +kernel, by unfold YardOnly.InRange; decide +kernel⟩
  rows := fun n hn f v h => by
    have hr : (Plan.reset.row n).get f = none := by
      interval_cases n <;> cases f <;> rfl
    exact absurd (hr.symm.trans h) nofun
  bays := fun q hq => by
    obtain rfl := List.mem_singleton.mp hq
    exact ⟨by decide, by decide, nofun, fun f v h => by cases f <;> cases h⟩

theorem witness_EveryStepKeepsTheCounters :
    ∃ s t : State, s.FormOk ∧ s.AddressesOk ∧ s.ClaimsOk ∧ s.CountersOk ∧ s.bays = [(9, fullBay)] ∧ step s = .next t :=
  ⟨{ yard [(9, fullBay)] with clock := some 4294967295, pending := [.accrualExpiry 9] }, _, ⟨by decide, by decide, by decide⟩,
    ⟨by decide, by decide⟩, ⟨by decide, by decide, fun p => by cases p <;> decide, fun p => by cases p <;> decide, nofun⟩,
    ⟨fun p hp => by
      obtain rfl := List.mem_singleton.mp hp
      exact ⟨fullBay_inRange, by unfold Settings.InRange; decide +kernel⟩,
     plain_inRange, rfl, nofun, nofun, by decide, by decide, fun m h => by cases h; decide, nofun⟩, rfl, rfl⟩

theorem witness_ClockAndDeparturesMakeTheDepartureChecks :
    ((timed 100).Takes .office ∧ (timed 100).minuteEnd = some 100 ∧ 100 ≤ (timed 100).now ∧
      ({ timed 100 with clock := some 4294967295 } : State).clock = some 4294967295) ∧ (yard [(9, coolBay)]).Takes .office ∧
    (1 : Byte).toNat ≤ 1 ∧ (yard [(9, coolBay)]).bay? (127 : Byte).toNat = none ∧
      (yard [(9, coolBay)]).bay? (9 : Byte).toNat = some coolBay := by decide +kernel

/-- A bay with a want and a command in flight, baseline 3. -/
def wanting (want : Option DefrostWant) (flight : Option Flight) : Bay :=
  { inState .granted with
    loop := { coolBay.loop with baseline := some 3, flight := flight }
    defrost := { (inState .granted).defrost with want := want } }

theorem witness_PollsCarryTheHighestRankedWant :
    grants.mode = .listen ∧ (yard []).mode = .run ∧ (wanting none none).loop.baseline = some 3 ∧
      (wanting none none).loop.flight = none ∧ (wanting (some .stop) none).defrost.want = some .stop ∧
      (wanting (some .startShore) none).defrost.want = some .startShore ∧ (wanting none none).defrost.state = .granted ∧
      (yard []).claimed 9 = false ∧ (wanting none none).readings.door ≠ .opened ∧
      (wanting none none).door.beaconConfirmed ≠ some (wanting none none).door.beaconWanted ∧
      (bay73 .shut none 0 .closed).door.beaconConfirmed = some (bay73 .shut none 0 .closed).door.beaconWanted ∧
      (wanting (some .stop) (some ⟨.stop, 0, 255⟩)).loop.flight = some ⟨.stop, 0, 255⟩ ∧
      (wanting (some .stop) (some ⟨.startShore, 0, 0⟩)).loop.flight = some ⟨.startShore, 0, 0⟩ := by decide

/-- R16: beside a start held back by a claim the beacon command in flight is sent again with its number. -/
theorem test_beacon_beside_held_start :
    (let r := wanting (some .startShore) (some ⟨.beaconOn, 0, 2⟩)
     let s := { yard [(9, r)] with
       claims := [(9, { holder := .fuel, leaseMinutes := 1, leaseEnd := 3, fillStart := none })] }
     ((s.compose 9 r).1.flight, (s.compose 9 r).2)) = (some ⟨.beaconOn, 0, 3⟩, ⟨some .beaconOn, 0⟩) := by decide +kernel

theorem witness_EchoesConfirmAdoptOrGiveUp :
    plainBay.loop.baseline = none ∧ (wanting none none).loop.baseline = some 3 ∧ (wanting none none).loop.flight = none ∧
      (wanting none (some ⟨.startShore, 0, 3⟩)).loop.flight = some ⟨.startShore, 0, 3⟩ ∧ (3 : BitVec 2) ≠ 0 ∧
      ¬((Flight.mk .stop 0 3).cmd = .startShore ∨ (Flight.mk .stop 0 3).cmd = .startEngine) := by decide

/-- The last slot of a round that entry to HALT ended. -/
def halting : State := { round 9 false none [] 14 with mode := .halt, roundEnding := true }

theorem witness_SlotsFollowTheRoundAndTheWatch :
    (∀ s ∈ [round 2 false (some 2) [14, 5, 23, 9] 23, round 9 true (some 5) [14, 5, 23, 9] 9, round 5 false (some 5) [] 5,
        round 23 true none [14] 14, round 23 false (some 23) [] 14],
      s.slot.map Slot.judged = some true ∧ s.commitPending = false ∧ s.roundEnding = false) ∧
      ((round 2 false (some 2) [14, 5, 23, 9] 23).nextWatch = some 9 ∧
        (round 2 false (some 2) [14, 5, 23, 9] 23).planned 9 = true) ∧
      (round 5 false (some 5) [] 5).addresses.find? (fun a => decide (5 < a)) = some 9 ∧
      ((round 9 true (some 5) [14, 5, 23, 9] 9).nextMain = some 5 ∧ (round 9 true (some 5) [14, 5, 23, 9] 9).planned 5 = true) ∧
      (∃ sl, (round 23 false (some 23) [] 14).slot = some sl ∧ (round 23 false (some 23) [] 14).RoundEnds sl) ∧
      (∃ sl, (round 23 true none [14] 14).slot = some sl ∧ (round 23 true none [14] 14).RoundEnds sl) ∧
      (∃ sl, halting.slot = some sl ∧ sl.judged = true ∧ halting.commitPending = false ∧ halting.RoundEnds sl) ∧
      ((round 2 false (some 2) [14, 5, 23, 9] 23).watch = [14, 5] ++ 23 :: 9 :: [] ∧ 23 ∉ [14, 5] ∧
        (round 9 true (some 5) [14, 5, 23, 9] 9).watch = [14, 5, 23] ++ [9] ∧ 9 ∉ [14, 5, 23] ∧
        (round 9 true (some 5) [14, 5, 23, 9] 9).cursor = some 9) :=
  ⟨by decide +kernel, by decide +kernel, by decide +kernel, by decide +kernel, ⟨_, rfl, .inr (.inr ⟨rfl, rfl, by decide⟩)⟩,
    ⟨_, rfl, .inr (.inl ⟨rfl, rfl⟩)⟩, ⟨_, rfl, rfl, rfl, .inl rfl⟩, by decide⟩

/-- Bay 41 in its slot with two misses: STOPPING with its timer spent, or GRANTED with a start sent for the third time. -/
def missing (d : DefrostState) : State :=
  let r := inState d
  { slotted 41 (yard [(41, { r with
      loop := { r.loop with missCount := 2, flight := some ⟨.startShore, 1, 3⟩ }
      defrost := { r.defrost with timer := .spent } })]) with
    slot := some { bay := 41, watch := false, carried := some .startShore, num := 1, judged := false } }

/-- Bay 41's record there. -/
def missingBay (d : DefrostState) : Bay :=
  let r := inState d
  { r with
    loop := { r.loop with missCount := 2, flight := some ⟨.startShore, 1, 3⟩ }, defrost := { r.defrost with timer := .spent } }

theorem witness_MissesAreCountedOncePerSlot :
    (∀ d, (missing d).commitPending = false ∧ (missing d).bay? 41 = some (missingBay d) ∧ 41 ∉ (missing d).queuedBays ∧
        (missing d).slot = some { bay := 41, watch := false, carried := some .startShore, num := 1, judged := false }) ∧
      ((missingBay .stopping).loop.missCount + 1 = 3 ∧ (missingBay .stopping).loop.presence ≠ .lost ∧
        (missingBay .stopping).defrost.state = .stopping ∧ (missingBay .stopping).defrost.timer = .spent) ∧
      ((missingBay .granted).loop.flight = some ⟨.startShore, 1, 3⟩ ∧ (missingBay .granted).defrost.state = .granted) ∧
      (missingBay .stopping).LostWhileStopping ∧ (missingBay .granted).ThirdSend (some .startShore) ∧
      coolBay.loop.missCount + 1 ≠ 3 ∧ BadReply (List.replicate 15 0) slot9 ∧ BadReply (replyB 42 1 0 1 0 50 0 0 9 0) slot9 ∧
      ((yard []).slot = none ∧ ending.slot.map Slot.judged = some true ∧ (List.replicate 14 (0 : Byte)).length < 15) :=
  ⟨fun d => ⟨rfl, rfl, by simp [missing, slotted, yard, State.queuedBays, State.reset], rfl⟩, by decide, by decide,
    ⟨by decide, by decide, rfl, rfl⟩, ⟨_, rfl, .inl rfl, rfl, by decide⟩, by decide, ⟨by decide, .inl (by decide)⟩,
    ⟨by decide, .inr (by decide)⟩, by decide⟩

/-- R21, R78, R84: a slot that ends unanswered on the third send of a start, and one that makes a STOPPING bay LOST. -/
theorem test_unanswered_slots :
    (let v := fun s => ((out .pollSlotEnd s).bay? 41).map fun r => (r.defrost.state, r.defrost.startFailures)
     (v (missing .granted), v (missing .stopping))) = (some (.drip, 1), some (.drip, 0)) := by decide +kernel

/-- A yard in RUN with bay 9 in its slot. -/
def replying (r : Bay) : State := slotted 9 (yard [(9, r)])

/-- Its replies: the mode, the door, the source. -/
def reply9 (mode door source : Byte) : List Byte := replyB 9 mode door source 0 50 (-10) 20 9 0

/-- Any such reply is valid. -/
theorem reply9_valid (r : Bay) (mode door source : Byte) (h : byteSum ((reply9 mode door source).take 15) = 255) :
    ValidReply (replying r) (reply9 mode door source) slot9 r :=
  ⟨rfl, rfl, by simp [reply9, replyB, withCheck, signed2, be2], h, rfl, rfl⟩

theorem witness_ValidReplyStoresEveryField :
    (∃ s f sl r l o, ValidReply s f sl r ∧ r.loop.echoed ((f.getD 5 0).setWidth 2) sl.carried = (l, o)) ∧
      (∃ s f sl r, ValidReply s f sl r ∧ r.loop.presence ≠ .present ∧ r.loop.lostReported = true) ∧
      (∃ s f sl r, ValidReply s f sl r ∧ (f.getD 2 0).toNat = 6 ∧ r.readings.alarmReported = false) ∧
      ∃ s f sl r, ValidReply s f sl r ∧ (f.getD 4 0).toNat = 2 ∧ r.entry.genset ≠ 1 ∧ r.readings.mismatchGen ≠ s.generation :=
  ⟨⟨_, _, _, _, _, _, reply9_valid coolBay 1 0 1 (by decide), rfl⟩,
    ⟨_, _, _, _, reply9_valid { coolBay with loop := { coolBay.loop with presence := .lost, lostReported := true } } 1 0 1
      (by decide), by decide, rfl⟩,
    ⟨_, _, _, _, reply9_valid coolBay 6 0 1 (by decide), by decide, rfl⟩,
    ⟨{ replying { coolBay with entry := { coolBay.entry with genset := 0 } } with generation := 1 }, reply9 1 0 2, slot9,
      { coolBay with entry := { coolBay.entry with genset := 0 } },
      ⟨rfl, rfl, by simp [reply9, replyB, withCheck, signed2, be2], by decide, rfl, rfl⟩, by decide, by decide, by decide⟩⟩

theorem witness_ValidReplyMovesTheDoorState :
    (∃ s f sl r, ValidReply s f sl r ∧ (f.getD 3 0).toNat = 0 ∧ r.door.state = .ajar ∧ r.settings.autoBeacon = 1) ∧
      (∃ s f sl r, ValidReply s f sl r ∧ (f.getD 3 0).toNat = 1 ∧ r.door.state = .shut ∧ s.claimed sl.bay = false) ∧
      (∃ s f sl r, ValidReply s f sl r ∧ (f.getD 3 0).toNat = 1 ∧ r.door.state = .openTiming) ∧
      (∃ s f sl r, ValidReply s f sl r ∧ (f.getD 3 0).toNat = 0 ∧ r.door.state ≠ .ajar ∧ r.door.state ≠ .switchFault) ∧
      (∃ s f sl r, ValidReply s f sl r ∧ 1 < (f.getD 3 0).toNat ∧ r.readings.doorUnknownRun = 2) ∧
      ∃ s f sl r, ValidReply s f sl r ∧ 1 < (f.getD 3 0).toNat ∧ r.readings.doorUnknownRun ≠ 2 :=
  ⟨⟨_, _, _, _, reply9_valid (bay73 .ajar none 9 .opened) 1 0 1 (by decide), by decide, rfl, rfl⟩,
    ⟨_, _, _, _, reply9_valid coolBay 1 1 1 (by decide), by decide, rfl, rfl⟩,
    ⟨_, _, _, _, reply9_valid (bay73 .openTiming none 9 .opened) 1 1 1 (by decide), by decide, rfl⟩,
    ⟨_, _, _, _, reply9_valid coolBay 1 0 1 (by decide), by decide, nofun, nofun⟩,
    ⟨_, _, _, _, reply9_valid { coolBay with readings := { coolBay.readings with doorUnknownRun := 2 } } 1 2 1 (by decide),
      by decide, rfl⟩,
    ⟨_, _, _, _, reply9_valid coolBay 1 255 1 (by decide), by decide, by decide⟩⟩

theorem witness_ValidReplyRecomputesTheFuel : ∃ s f sl r, ValidReply s f sl r ∧ s.clock = some 7 :=
  ⟨{ replying coolBay with clock := some 7 }, reply9 1 0 1, slot9, coolBay,
    ⟨rfl, rfl, by simp [reply9, replyB, withCheck, signed2, be2], by decide, rfl, rfl⟩, rfl⟩

/-- A yard whose one bay is claimed and on the watch list. -/
def watched : State :=
  { (yard [(9, coolBay)]).modPort .fuel fun p => { p with claimCount := 1 } with
    watch := [9]
    claims := [(9, { holder := .fuel, leaseMinutes := 1, leaseEnd := 3, fillStart := none })] }

theorem watched_claimed {b : Nat} (h : watched.claimed b = true) : b = 9 := by
  by_contra hb
  simp [watched, State.claimed, State.claimOf, findKey, State.modPort, Ne.symm hb] at h

theorem witness_EveryStepKeepsTheWatchList : ∃ s t : State, s.WatchOk ∧ Rising s.staged.bays ∧ s.watch = [9] ∧ step s = .next t :=
  ⟨{ watched with pending := [.claimRelease .fuel [9]] }, _,
    ⟨by decide, ⟨by decide, by decide⟩, by decide +kernel, fun b h => by
      by_cases hb : b = 9
      · subst hb
        exact .inl (by decide)
      · simp [watched, yard, State.hasCause, State.bay?, findKey, State.modPort, Ne.symm hb] at h,
     fun b h => by
      have hb : b = 9 := watched_claimed h
      subst hb
      decide⟩, by decide, rfl, rfl⟩

/-- Bays 5, 14 and 23 of 1.2 on the list, each with a claim but 5, and bay 2 waiting with one; the cursor is at 5. -/
def waiting : State :=
  let c := { holder := .office, leaseMinutes := 1, leaseEnd := 3, fillStart := none }
  { yard ([2, 5, 14, 23].map fun b => (b, coolBay)) with
    watch := [14, 5, 23], cursor := some 5, claims := [2, 14, 23].map fun b => (b, c) }

theorem witness_WatchBeginsAndEnds :
    waiting.watch = [14] ++ 5 :: [23] ∧ 5 ∉ [14] ++ [23] ∧ waiting.watch.length ≤ 4 ∧ waiting.hasCause 5 = false ∧
      Rising waiting.bays ∧ waiting.hasCause 2 = true ∧ 2 ∉ [14] ++ [23] ∧ waiting.hasCause 14 = true := by decide +kernel

/-- R5, R8, R9: bay 5 leaves, the cursor moves back to 14, bay 2 is appended. -/
theorem test_watch_left :
    (let t := waiting.causeEnds 5
     (t.watch, t.cursor)) = ([14, 23, 2], some 14) := by decide +kernel

theorem witness_HaltStopsTheLoop :
    ∃ s t : State, s.HaltOk ∧ step s = .next t ∧ s.mode = .halt ∧ s.slot = some slot9 ∧ t.mode = .halt :=
  ⟨{ slotted 9 (yard [(9, coolBay)]) with mode := .halt, nextMain := none, roundEnding := true, pending := [.pollSlotEnd] }, _,
    ⟨fun _ => rfl, fun _ _ => rfl⟩, rfl, rfl, rfl, by decide +kernel⟩

/-- The end of bay 9's slot where it is granted and wants a start. -/
def starting : State :=
  { slotted 9 (yard [(9, wanting (some .startShore) none)]) with
    slot := some { slot9 with judged := true }, pending := [.pollSlotEnd] }

theorem witness_CommandsAreCarriedOnlyWhereAllowed :
    ∃ (t : State) (sl : Slot), step starting = .next t ∧ t.slot = some sl ∧ sl.judged = false ∧ starting.slot ≠ some sl ∧
      starting.pending.head? = some .pollSlotEnd ∧ sl.carried = some .startShore :=
  ⟨_, { slot9 with carried := some .startShore, num := 0 }, rfl, by decide +kernel, rfl, by decide, rfl, rfl⟩

theorem witness_AccrualExpiryAccruesOrIsSuspended :
    (∀ d ∈ [DefrostState.granted, .running, .stopping, .unknown],
      ∃ r, ({ yard [(9, inState d)] with now := 100000 } : State).bay? 9 = some r ∧
        r.frost.accrualEnd ≤ ({ yard [(9, inState d)] with now := 100000 } : State).now ∧ r.defrost.state = d) ∧
    (let s := bay52 37 9 95 .eligible (-295) (-180)
     ∃ r, s.bay? 52 = some r ∧ r.frost.accrualEnd ≤ s.now ∧ r.defrost.state = .queued ∧ r.loop.presence = .present ∧
       r.frost.doorSeconds = 95 ∧ r.readings.coil = some (-295) ∧ r.readings.returnAir = some (-180)) :=
  ⟨fun d _ => ⟨_, rfl, by cases d <;> decide, rfl⟩, _, rfl, by decide, rfl, rfl, rfl, rfl, rfl⟩

/-- R54: the level just below and at each threshold, with the yard values of R146, in RUN and in FALLBACK. -/
theorem test_levels :
    ([23, 24, 39, 40, 63, 64, 95, 96, 255].map fun d => ((yard []).thresholds coolBay).level d) =
      [.none, .eligible, .eligible, .due, .due, .urgent, .urgent, .forced, .forced] ∧
    ([31, 32, 55, 56, 79, 80, 111, 112].map fun d =>
        (({ yard [] with mode := .fallback } : State).thresholds coolBay).level d) =
      [.none, .eligible, .eligible, .due, .due, .urgent, .urgent, .forced] := by decide +kernel

/-- R65: the accrual expiry that brings a CLEAR bay to ELIGIBLE puts it at the tail of the queue. -/
theorem test_accrual_joins :
    (let r := { coolBay with frost := { coolBay.frost with debt := 23, accrualEnd := 0 } }
     let t := out (.accrualExpiry 9) { yard [(9, r)] with now := 400, mode := .listen, queue := [⟨5, 2, 2⟩], lastJoin := 2 }
     ((t.bay? 9).map fun r => (r.frost.urgency, r.defrost.state), t.queue)) =
    (some (.eligible, .queued), [⟨5, 2, 2⟩, ⟨9, 10, 3⟩]) := by decide +kernel

theorem witness_SelectionPicksByLevelWithinTheLimit :
    ({ grants with mode := .run } : State).pickShore = some 61 ∧ ({ grants with mode := .run } : State).raiseDue = false ∧
      ({ grants with mode := .run, raiseCounter := 3 } : State).pickShore = some 12 := by decide +kernel

/-- R68: the table of the shore limit, with S 2 and S_f 1 in force and a pending plan with 1 and 0. -/
theorem test_shore_limit :
    (let less := { Yard.reset with only := { Yard.reset.only with slots := 1, fbSlots := 0 } }
     [(LoopMode.halt, false), (.run, true), (.fallback, false), (.fallback, true)].map fun x =>
      ({ yard [] with mode := x.1, commitPending := x.2, staged := { Plan.reset with yard := less } } : State).shoreLimit) =
    [2, 1, 1, 0] := by decide +kernel

/-- R67: a bay of 4.3 is grantable in RUN, but not in LISTEN, marked, refused, OFF, with its door OPEN or claimed. -/
theorem test_grantable :
    (let s : State := { grants with mode := .run }
     let r := queuedBay .due false none 240
     [s.grantable 30 r, grants.grantable 30 r, { s with marked := [30] }.grantable 30 r,
      s.grantable 30 { r with defrost := { r.defrost with refusal := true } },
      s.grantable 30 { r with readings := { r.readings with unitMode := some .off } },
      s.grantable 30 { r with readings := { r.readings with door := .opened } }, watched.grantable 9 r, watched.grantable 8 r]) =
    [true, false, false, false, false, false, false, true] := by decide +kernel

/-- A yard whose filter has run out, in a shed state and with a line level. -/
def filtering (x : ShedState) (line : Bool) (dwell : Timer) (slots : Nat) : State :=
  { yard [] with shed := x, shedLine := line, filterEnd := some 0, dwell := dwell, slotHolders := slots }

/-- A bay in DRIP whose timer has run out, its debt at ELIGIBLE. -/
def dripping : State :=
  yard [(9, { inState .drip with
    frost := { coolBay.frost with debt := 24, urgency := .eligible }
    defrost := { (inState .drip).defrost with dripEnd := some 0 } })]

theorem witness_SelectionRunsMakeEveryGrantThatQualifies :
    (∃ s t f sl r, ValidReply s f sl r ∧ r.defrost.state = .queued ∧ exec (.replyReceived f) s = .next t) ∧
      (∃ t, ({ grants with gapEnd := some 9 } : State).gapEnd = some 9 ∧ 9 ≤ ({ grants with gapEnd := some 9 } : State).now ∧
        exec .restartGapExpiry { grants with gapEnd := some 9 } = .next t) ∧
      (∃ t, grants.Takes .office ∧ grants.silence ≠ .silent ∧ grants.mode ≠ .run ∧
        exec (.modeSet .office [byteOf LoopMode.run.code]) grants = .next t) ∧
      (∃ t r, dripping.bay? 9 = some r ∧ r.defrost.state = .drip ∧ r.defrost.dripEnd = some 0 ∧ 0 ≤ dripping.now ∧
        r.frost.urgency ≠ .none ∧ 9 ∉ dripping.marked ∧ exec (.dripTimerExpiry 9) dripping = .next t) ∧
      (∃ t, State.reset.Takes .office ∧ State.reset.commitPending = false ∧ State.reset.commitFailure = none ∧
        State.reset.slot = none ∧ exec (.planCommit .office []) State.reset = .next t) ∧
      (7 ∈ grants.queuedBays ∧ grants.planned 7 = true ∧ 7 ∉ ({ grants with mode := .run } : State).select.queuedBays) ∧
      (∃ t, (filtering .draining false .absent 1).filterEnd = some 0 ∧ 0 ≤ (filtering .draining false .absent 1).now ∧
        (filtering .draining false .absent 1).shedLine = false ∧ (filtering .draining false .absent 1).shed = .draining ∧
        exec .shedFilterExpiry (filtering .draining false .absent 1) = .next t) ∧
      (∃ t, (yard [(9, inState .queued)]).Takes .office ∧ (yard [(9, inState .queued)]).inDefrost (9 : Byte).toNat .queued = true ∧
        exec (.defrostRequest .office [9]) (yard [(9, inState .queued)]) = .next t) ∧
      ∃ t, exec (.dripTimerExpiry 9) dripping = .next t ∧ SelectionDue dripping t :=
  ⟨⟨_, _, _, _, _, reply9_valid (inState .queued) 1 0 1 (by decide), rfl, rfl⟩, ⟨_, rfl, by decide, rfl⟩,
    ⟨_, rfl, by decide, by decide, rfl⟩, ⟨_, _, rfl, rfl, rfl, by decide, by decide, by decide, rfl⟩,
    ⟨_, rfl, rfl, by decide +kernel, rfl, rfl⟩, by decide +kernel, ⟨_, rfl, by decide, rfl, rfl, rfl⟩, ⟨_, rfl, by decide, rfl⟩,
    ⟨_, rfl, .joined (by decide +kernel)⟩⟩

/-- No bay is queued in that yard. -/
theorem replying_queue (r : Bay) : slot9.bay ∉ (replying r).queuedBays := by
  simp [replying, slotted, yard, State.queuedBays, State.reset]

/-- A GRANTED bay: whether its start was confirmed, the counted replies, the resolved drip time. -/
def grantedBay (confirmed : Bool) (checkCount drip : Nat) : Bay :=
  let r := inState .granted
  { r with
    settings := { r.settings with dripTime := drip }
    frost := { r.frost with debt := 50, urgency := .due }
    defrost := { r.defrost with
      kind := some .shore, slot := true, want := some .startShore, confirmed := confirmed, checkCount := checkCount, kept := some (0, 1) } }

theorem witness_DefrostFollowsTheModeShown :
    (∀ d ∈ [DefrostState.granted, .unknown, .running, .stopping], ∃ s f sl r, ValidReply s f sl r ∧ (f.getD 2 0).toNat = 3 ∧
        r.defrost.state = d) ∧
      (∀ d ∈ [DefrostState.running, .stopping, .unknown], ∃ s f sl r, ValidReply s f sl r ∧ sl.bay ∉ s.queuedBays ∧
        r.defrost.state = d ∧ (f.getD 2 0).toNat ∈ [1, 2, 4, 5]) ∧
      (∃ s f sl r, ValidReply s f sl r ∧ sl.bay ∉ s.queuedBays ∧ r.defrost.state = .running ∧ (f.getD 2 0).toNat = 6) ∧
      (∀ d ∈ [DefrostState.clear, .running, .stopping, .drip, .unknown], ∃ s f sl r, ValidReply s f sl r ∧
        (f.getD 2 0).toNat = 0 ∧ r.defrost.state = d) ∧
      ∀ d ∈ [DefrostState.clear, .drip], ∃ s f sl r, ValidReply s f sl r ∧ (f.getD 2 0).toNat = 6 ∧ r.defrost.state = d :=
  ⟨fun d _ => ⟨_, _, _, _, reply9_valid (inState d) 3 0 1 (by decide), by decide, rfl⟩,
    fun d _ => ⟨_, _, _, _, reply9_valid (inState d) 5 0 1 (by decide), replying_queue _, rfl, by decide⟩,
    ⟨_, _, _, _, reply9_valid (inState .running) 6 0 1 (by decide), replying_queue _, rfl, by decide⟩,
    fun d _ => ⟨_, _, _, _, reply9_valid (inState d) 0 0 1 (by decide), by decide, rfl⟩,
    fun d _ => ⟨_, _, _, _, reply9_valid (inState d) 6 0 1 (by decide), by decide, rfl⟩⟩

theorem witness_RepliesCheckConfirmOrWithdrawAGrant :
    (∃ s f sl r, ValidReply s f sl r ∧ r.defrost.state = .granted ∧ sl.bay ∉ s.queuedBays ∧ (f.getD 2 0).toNat = 5 ∧
        r.frost.urgency ≠ .none ∧ r.defrost.kept = some (0, 1)) ∧
      (∃ s f sl r, ValidReply s f sl r ∧ r.defrost.state = .granted ∧ sl.bay ∉ s.queuedBays ∧ (f.getD 2 0).toNat = 1 ∧
        (f.getD 3 0).toNat = 1) ∧
      (∃ s f sl r, ValidReply s f sl r ∧ r.defrost.state = .granted ∧ sl.bay ∉ s.queuedBays ∧ (f.getD 2 0).toNat = 1 ∧
        (f.getD 3 0).toNat ≠ 1 ∧ r.defrost.confirmed = true ∧ 1 ≤ r.defrost.checkCount ∧ r.settings.dripTime = 0) ∧
      (∃ s f sl r, ValidReply s f sl r ∧ r.defrost.state = .granted ∧ sl.bay ∉ s.queuedBays ∧ (f.getD 2 0).toNat = 1 ∧
        (f.getD 3 0).toNat ≠ 1 ∧ (r.loop.echoed ((f.getD 5 0).setWidth 2) sl.carried).2 = .startNotTaken) ∧
      ∃ s f sl r, ValidReply s f sl r ∧ r.defrost.state = .granted ∧ sl.bay ∉ s.queuedBays ∧ (f.getD 2 0).toNat = 0 ∧
        (r.loop.echoed ((f.getD 5 0).setWidth 2) sl.carried).2 ≠ .startNotTaken :=
  ⟨⟨_, _, _, _, reply9_valid (grantedBay false 0 5) 5 0 1 (by decide), rfl, replying_queue _, by decide, by decide, rfl⟩,
    ⟨_, _, _, _, reply9_valid (grantedBay false 0 5) 1 1 1 (by decide), rfl, replying_queue _, by decide, by decide⟩,
    ⟨_, _, _, _, reply9_valid (grantedBay true 1 0) 1 0 1 (by decide), rfl, replying_queue _, by decide, by decide, rfl, by decide,
      rfl⟩,
    ⟨{ replying (missingBay .granted) with slot := some { slot9 with carried := some .startShore } }, reply9 1 0 1,
      { slot9 with carried := some .startShore }, missingBay .granted,
      ⟨rfl, rfl, by simp [reply9, replyB, withCheck, signed2, be2], by decide, rfl, rfl⟩, rfl, replying_queue (missingBay .granted), by decide,
      by decide, by decide⟩,
    ⟨_, _, _, _, reply9_valid (grantedBay false 0 5) 0 0 1 (by decide), rfl, replying_queue _, by decide, by decide⟩⟩

/-- R76, R78, R85: with a drip time of 0 the bay whose start check fails is granted anew in the same reply, and the outcome
of the start it has just given up does not touch the new grant. -/
theorem test_failed_check_and_regrant :
    (let r := { grantedBay true 1 0 with loop := { coolBay.loop with flight := some ⟨.startShore, 1, 3⟩ } }
     let s := { replying r with slot := some { slot9 with carried := some .startShore }, slotHolders := 1 }
     ((out (.replyReceived (reply9 1 0 1)) s).bay? 9).map fun r =>
       (r.defrost.state, r.defrost.startFailures, r.defrost.confirmed)) = some (.granted, 1, false) := by decide +kernel

theorem witness_UnplannedDefrostIsAdoptedOrStopped :
    (∃ s f sl r, ValidReply s f sl r ∧ r.defrost.state = .clear ∧ (f.getD 2 0).toNat = 3 ∧ s.mode ≠ .halt ∧
        (f.getD 4 0).toNat = 2 ∧ r.entry.genset = 1) ∧
      (∃ s f sl r, ValidReply s f sl r ∧ r.defrost.state = .drip ∧ (f.getD 2 0).toNat = 3 ∧ s.mode ≠ .halt ∧
        (f.getD 4 0).toNat = 1 ∧ s.slotHolders < s.shoreLimit ∧ s.shed = .normal ∧ sl.bay ∉ s.marked) ∧
      ∃ s f sl r, ValidReply s f sl r ∧ r.defrost.state = .queued ∧ (f.getD 2 0).toNat = 3 ∧ s.mode = .run ∧
        (f.getD 4 0).toNat = 1 ∧ ¬ s.slotHolders < s.shoreLimit :=
  ⟨⟨_, _, _, _, reply9_valid (inState .clear) 3 0 2 (by decide), rfl, by decide, by decide, by decide, rfl⟩,
    ⟨_, _, _, _, reply9_valid (inState .drip) 3 0 1 (by decide), rfl, by decide, by decide, by decide, by decide, rfl, by decide⟩,
    ⟨{ replying (inState .queued) with slotHolders := 2 }, reply9 3 0 1, slot9, inState .queued,
      ⟨rfl, rfl, by simp [reply9, replyB, withCheck, signed2, be2], by decide, rfl, rfl⟩, rfl, by decide, rfl, by decide, by decide⟩⟩

theorem witness_DefrostTimerExpiryActsByState :
    ∀ d ∈ [DefrostState.granted, .running, .stopping, .unknown], ∃ r, (timedOutYard d).bay? 61 = some r ∧
      r.defrost.timer = .running 0 ∧ 0 ≤ (timedOutYard d).now ∧ r.loop.presence ≠ .lost ∧ 61 ∉ (timedOutYard d).queuedBays ∧
      r.defrost.state = d :=
  fun d _ => ⟨_, rfl, rfl, Nat.zero_le _, by cases d <;> decide, by cases d <;> decide, rfl⟩

theorem witness_DefrostTimerExpiryOfALostBay :
    (let r := { inState .running with
        loop := { coolBay.loop with presence := .lost }, defrost := timedOut .running }
     (yard [(61, r)]).bay? 61 = some r ∧ r.defrost.state = .running ∧ r.loop.presence = .lost) := by decide +kernel

theorem witness_DripEndsInTheQueueOrClear :
    (let r := inState .drip
     let d := { r with defrost := { r.defrost with dripEnd := some 0 } }
     let u := { d with frost := { d.frost with urgency := .eligible } }
     (yard [(9, d)]).bay? 9 = some d ∧ d.defrost.state = .drip ∧ d.defrost.dripEnd = some 0 ∧ d.frost.urgency = .none ∧
       (yard [(9, u)]).bay? 9 = some u ∧ u.frost.urgency ≠ .none ∧ 9 ∉ (yard [(9, u)]).marked ∧ 9 ∉ (yard [(9, u)]).queuedBays) := by
  decide +kernel

theorem witness_DefrostCancelActsOnTheStateItFinds :
    ((yard []).Takes .office ∧ (yard []).bay? (9 : Byte).toNat = none) ∧
      ∀ d : DefrostState, ∃ r, (yard [(9, inState d)]).Takes .office ∧ (yard [(9, inState d)]).bay? (9 : Byte).toNat = some r ∧
        r.defrost.state = d ∧ (9 : Byte).toNat ∉ (yard [(9, inState d)]).queuedBays :=
  ⟨⟨rfl, rfl⟩, fun d => ⟨inState d, rfl, rfl, rfl, by cases d <;> decide⟩⟩

theorem witness_DefrostRequestRaisesToDue :
    (yard [(9, coolBay)]).Takes .office ∧ (yard [(9, coolBay)]).bay? (9 : Byte).toNat = some coolBay ∧
      40 = max coolBay.frost.debt ((yard [(9, coolBay)]).thresholds coolBay).due := by decide +kernel

/-- A yard with one queued and one granted bay, the granted one with a slot. -/
def queueing : State :=
  let g := inState .granted
  { yard [(5, inState .queued), (9, { g with defrost := { g.defrost with slot := true, kept := some (1, 1) } })] with
    now := 400, queue := [⟨5, 2, 2⟩], lastJoin := 2, slotHolders := 1, pending := [.defrostCancel .office [5]] }

theorem queueing_ok : queueing.QueueOk where
  form := by decide
  once := by decide
  exact := fun b => by
    by_cases h5 : b = 5
    · subst h5
      decide
    · by_cases h9 : b = 9
      · subst h9
        decide
      · simp [queueing, yard, State.queuedBays, State.inDefrost, State.defrostState, State.bay?, findKey, Ne.symm h5, Ne.symm h9, h5]
  order := by decide
  kept := by decide
  joins := by decide
  times := by decide
  recent := by decide
  flags := fun p hp h => by
    simp only [queueing, yard, List.mem_cons, List.not_mem_nil, or_false] at hp
    rcases hp with rfl | rfl
    · cases h
    · exact trivial
  count := by decide

theorem witness_EveryStepKeepsTheFrostQueue :
    ∃ s t : State, s.QueueOk ∧ Rising s.staged.bays ∧ s.queuedBays = [5] ∧ s.inDefrost 9 .granted = true ∧ step s = .next t :=
  ⟨queueing, _, queueing_ok, by decide, rfl, by decide, rfl⟩

theorem witness_SelectionRunCountsItsShoreGrants : ∃ s : State, s.QueueOk ∧ s.queuedBays = [5] :=
  ⟨queueing, queueing_ok, rfl⟩

/-- R71, R74: in 4.3's worked round two shore grants take two slots, and the raise counter goes from 2 to 3 and then to 0. -/
theorem test_raise_counter :
    (let t := ({ grants with mode := .run } : State).select
     (t.slotHolders, t.raiseCounter)) = (2, 0) := by decide +kernel

/-- A yard that drains: bay 9 holds the last slot. -/
def draining : State := { queueing with shed := .draining, pending := [.defrostCancel .office [9]] }

theorem witness_EveryStepKeepsTheShoreBudgetAndTheShedState :
    (∃ s t : State, s.BudgetOk ∧ s.slotHolders = 1 ∧ step s = .next t) ∧
      ∃ s t : State, s.ShedOk ∧ s.shed = .draining ∧ step s = .next t :=
  ⟨⟨queueing, _, ⟨by decide, by decide, nofun, nofun⟩, rfl, rfl⟩,
    ⟨draining, _, ⟨by decide, by decide, by decide, by decide, by decide⟩, rfl, rfl⟩⟩

theorem witness_DoorSecondsAndTheGraceTimerAreTaken :
    (let s := { yard [(73, bay73 .openTiming (some 100) 65535 .opened)] with now := 100 }
     s.bay? 73 = some (bay73 .openTiming (some 100) 65535 .opened) ∧
       (bay73 .openTiming (some 100) 65535 .opened).readings.door = .opened ∧
       (bay73 .openTiming (some 100) 65535 .opened).door.graceEnd = some 100 ∧ 100 ≤ s.now) ∧
    (yard [(9, coolBay)]).bay? 9 = some coolBay ∧ coolBay.readings.door ≠ .opened := by decide +kernel

theorem witness_BeaconSetRecordsTheWantedState :
    (yard [(9, coolBay)]).Takes .patrol ∧ (yard [(9, coolBay)]).Takes .office ∧ 1 < (2 : Byte).toNat ∧ (1 : Byte).toNat ≤ 1 ∧ (yard [(9, coolBay)]).planned (10 : Byte).toNat = false ∧
      (yard [(9, coolBay)]).planned (9 : Byte).toNat = true := by decide

theorem witness_BayReadReturnsTheSummary :
    (yard [(9, coolBay)]).Takes .patrol ∧ (yard [(9, coolBay)]).bay? (0 : Byte).toNat = none ∧ (yard [(9, coolBay)]).bay? (9 : Byte).toNat = some coolBay := by
  decide +kernel

theorem witness_DoorAndFuelListsAreOrdered :
    Rising grants.bays ∧ ∀ p ∈ grants.bays, p.2.fuel.endurance.getD 0 ≤ 65535 := by decide +kernel

theorem witness_ListsAreReadInPagesOfSixteen : ∀ p, grants.Takes p := fun p => by cases p <;> rfl

theorem witness_ClaimIsRefusedByTheFirstFailingCheck :
    watched.AddressesOk ∧ watched.Takes .fuel ∧ 240 < (241 : Byte).toNat ∧ (240 : Byte).toNat ≤ 240 ∧ (0 : Byte).toNat = 0 ∧ 127 < (128 : Byte).toNat ∧
      watched.planned (10 : Byte).toNat = false ∧ watched.planned (9 : Byte).toNat = true ∧ (9 : Byte).toNat ∉ watched.marked ∧
      watched.claimOf (9 : Byte).toNat = some { holder := .fuel, leaseMinutes := 1, leaseEnd := 3, fillStart := none } ∧
      (yard [(9, coolBay)]).claimOf (9 : Byte).toNat = none ∧
      12 ≤ (((yard [(9, coolBay)]).modPort .fuel fun p => { p with claimCount := 12 }).port .fuel).claimCount :=
  ⟨⟨by decide, by decide⟩, by decide +kernel⟩

theorem witness_ClaimAddsTheRecordAndItsEffects :
    ∀ r ∈ [coolBay, inState .granted, bay73 .openTiming (some 9) 0 .opened],
      (yard [(9, r)]).Takes .fuel ∧ (yard [(9, r)]).bay? (9 : Byte).toNat = some r ∧ (240 : Byte).toNat ≤ 240 ∧ (9 : Byte).toNat ∉ (yard [(9, r)]).marked ∧
      (yard [(9, r)]).claimOf (9 : Byte).toNat = none ∧ ((yard [(9, r)]).port .fuel).claimCount < 12 ∧
      (yard [(9, r)]).claims.length < 32 := by decide +kernel

theorem witness_ClaimRenewRestartsTheLease :
    watched.Takes .fuel ∧ (240 : Byte).toNat ≤ 240 ∧ watched.claimOf (9 : Byte).toNat = some { holder := .fuel, leaseMinutes := 1, leaseEnd := 3, fillStart := none } ∧
      watched.bay? (9 : Byte).toNat = some coolBay ∧ (yard []).claimOf (9 : Byte).toNat = none := by decide +kernel

theorem witness_ClaimEndsByReleaseOrLease :
    (fuelClaim.claimOf (88 : Byte).toNat).map (fun c => (c.holder, c.fillStart, decide (c.leaseEnd ≤ fuelClaim.now / 40))) =
        some (.fuel, some 4, true) ∧
      (fuelClaim.bay? (88 : Byte).toNat).map (fun r => (r.readings.fuelLevel, (61 - 4) * r.settings.capacity / 100)) =
        some (some 61, 131) ∧ (yard []).Takes .fuel ∧ (yard []).claimOf (88 : Byte).toNat = none ∧ Rising fuelClaim.bays ∧
      (fuelClaim.bay? 88).map (fun r => decide (r.defrost.state ≠ .queued)) = some true ∧ Port.office ≠ .fuel ∧ fuelClaim.Takes .fuel ∧ fuelClaim.Takes .office := by decide +kernel

/-- A QUEUED bay at DUE under a claim, on the watch list behind bay 14, with the cursor on it; bay 23 waits for a place. -/
def queuedClaim : State :=
  { watched with
    bays := [(9, queuedBay .due false none 240), (14, inState .granted), (23, inState .granted)]
    queue := [⟨9, 2, 1⟩], lastJoin := 1, watch := [14, 9], cursor := some 9 }

theorem witness_QueuedClaimEnds :
    (queuedClaim.claimOf 9).isSome = true ∧ Rising queuedClaim.bays ∧
      (queuedClaim.bay? 9).map (fun r => (r.defrost.state, r.door.state)) = some (.queued, .shut) ∧
      queuedClaim.watch = [14] ++ 9 :: [] ∧ 9 ∉ [14] ++ ([] : List Nat) ∧ queuedClaim.hasCause 23 = true ∧
      (∀ d ∈ [DoorState.openAttended, .openTiming, .ajar, .switchFault], ∃ r : Bay, r.defrost.state = .queued ∧ r.door.state = d) ∧
      9 ∉ { queuedClaim with watch := [] }.watch := by
  refine ⟨by decide, by decide, by decide, rfl, by decide, by decide +kernel, fun d _ => ?_, by decide⟩
  exact ⟨{ queuedBay .due false none 240 with door := { (queuedBay .due false none 240).door with state := d } }, rfl, rfl⟩

/-- R5, R9, R69: bay 9 leaves the list, bay 23 is admitted, then the run grants bay 9, which comes back at the end. -/
theorem test_queued_claim_ends :
    (let t := out (.claimRelease .fuel [9]) queuedClaim
     (t.watch, t.cursor, t.inDefrost 9 .granted)) = ([14, 23, 9], some 14, true) := by decide +kernel

theorem witness_EveryStepKeepsTheClaimTable :
    ∃ s t : State, s.ClaimsOk ∧ Rising s.bays ∧ Rising s.staged.bays ∧ s.claims.length = 1 ∧ step s = .next t :=
  ⟨{ watched with pending := [.claimRelease .fuel [9]] }, _,
    ⟨by decide, by decide, fun p => by cases p <;> decide, fun p => by cases p <;> decide, fun b h => by
      have hb : b = 9 := watched_claimed h
      subst hb
      decide⟩, by decide, by decide, rfl, rfl⟩

theorem witness_ShedLineFilterDwellAndGapMoveTheShedState :
    (true ≠ State.reset.shedLine ∧ (∀ x ∈ [ShedState.normal, .draining, .shed, .restart], ∀ l ∈ [true, false],
        (filtering x l .spent 1).filterEnd = some 0 ∧ 0 ≤ (filtering x l .spent 1).now ∧ (filtering x l .spent 1).shed = x ∧
          (filtering x l .spent 1).shedLine = l) ∧ (filtering .normal true .absent 0).slotHolders = 0 ∧
      (filtering .shed false (.running 9) 0).dwell ≠ .spent ∧ (filtering .shed false .spent 0).yard.only.restartGap ≠ 0) ∧
    (let s := { yard [] with shed := .shed, dwell := .running 0, releaseSeen := true }
     let z := { s with yard := { Yard.reset with only := { Yard.reset.only with restartGap := 0 } } }
     s.shed = .shed ∧ s.dwell = .running 0 ∧ s.releaseSeen = true ∧ s.yard.only.restartGap ≠ 0 ∧ z.yard.only.restartGap = 0 ∧
       ({ s with releaseSeen := false } : State).releaseSeen = false ∧ ({ s with gapEnd := some 0 } : State).gapEnd = some 0) := by decide

theorem witness_LastSlotFreedInDraining :
    ∃ t, Instr.defrostCancel .office [9] ∉ [Instr.shedFilterExpiry, .fullReset] ∧
      exec (.defrostCancel .office [9]) draining = .next t ∧ draining.shed = .draining ∧ draining.slotHolders ≠ 0 ∧
      t.slotHolders = 0 :=
  ⟨_, by decide, rfl, rfl, by decide, by decide +kernel⟩

/-- R169: the last slot freed in DRAINING. -/
theorem test_draining_ends :
    (let t := out (.defrostCancel .office [9]) draining
     (t.shed, t.dwell, (t.port .office).queue.map Event.kind)) = (.shed, .running (400 + 60 * 40), [.shedEntered]) := by
  decide +kernel

/-- R75, R169: a loop reset that withdraws the last grant in DRAINING. -/
theorem test_loop_reset_ends_draining :
    (let t := out (.loopReset .office []) draining
     (t.shed, t.dwell, t.slotHolders, (t.port .office).queue.map Event.kind)) =
    (.shed, .running (400 + 60 * 40), 0, [.shedEntered]) := by decide +kernel

theorem witness_SilenceTimerSetsTheActionsMode :
    silent.silenceTimer = some ⟨5120 * 40, 120⟩ ∧ 5120 * 40 ≤ silent.now ∧ silent.silence = .watching ∧
      ({ silent with silence := .silent } : State).silence = .silent ∧ silent.commitPending = false ∧
      (out .silenceTimerExpiry silent).mode ≠ silent.mode := by decide +kernel

theorem witness_ModeSetAndResumeChangeTheMode :
    (grants.Takes .office ∧ grants.commitPending = false ∧ (yard []).Takes .office ∧
        (out .silenceTimerExpiry silent).Takes .office) ∧
      (halting.Takes .office ∧ halting.commitPending = false ∧ halting.silence ≠ .silent ∧ halting.mode = .halt ∧
        halting.slot.isSome = true ∧ ({ halting with slot := none } : State).addresses.head? = some 2) ∧
      (({ ending with slot := none, silence := .silent, savedMode := some .halt } : State).commitPending = true ∧
        ({ ending with slot := none, silence := .silent, savedMode := some .halt } : State).yard.only.recovery = 0 ∧
        ({ ending with slot := none, silence := .silent, savedMode := some .halt } : State).mode ≠ .halt) ∧ ((0 : Byte) = 0 ∧ 4 < (5 : Byte).toNat) ∧ (1 : Byte) = byteOf LoopMode.run.code ∧ grants.silence ≠ .silent ∧
      grants.mode ≠ .run ∧ (yard []).mode = .run ∧ (out .silenceTimerExpiry silent).silence = .silent ∧
      (out .silenceTimerExpiry silent).yard.only.recovery = 0 ∧ (out .silenceTimerExpiry silent).commitPending = false ∧
      (out .silenceTimerExpiry silent).savedMode = some .run := by decide +kernel

/-- R3: a round begins at the lowest address at once when the mode leaves HALT between rounds. -/
theorem test_leaving_halt :
    (let t := out (.modeSet .office [1]) { halting with slot := none, roundEnding := false }
     (t.slotFor, t.nextMain)) = (some (2, false), some 2) := by decide +kernel

theorem witness_OnlyTheOfficeSteersTheYard :
    Port.fuel ≠ .office ∧ ∃ t, exec (Request.claim.toInstr .fuel [9, 30]) (yard [(9, coolBay)]) = .next t := ⟨by decide, _, rfl⟩

end Sys2Proof.Tests
end

