-- ==== Sys2Proof/Proofs/BayReadings.lean ====
section
/-!
PROOFS. Decoding the class-dependent fields of a reply: the class code, the temperatures, the fuel field in its two forms, what
a fuel field leaves in the readings, and the coil term's need of both temperatures (02 R29 to R33, 03 R48).
-/
namespace Sys2Proof.Machine

/-! ## The class code (R29) -/

theorem unitClass_ofCode_eq_none {n : Nat} (h1 : n ≠ 1) (h2 : n ≠ 2) : UnitClass.ofCode n = none := by
  unfold UnitClass.ofCode
  split
  · exact absurd rfl h1
  · exact absurd rfl h2
  · rfl

/-! ## Temperatures (R30) -/

/-- The range of R30 in the whole degrees that a class A unit sends. -/
theorem temperature_classA (hi lo : Byte) :
    temperature .a hi lo = if -50 ≤ hi.toInt ∧ hi.toInt ≤ 50 then some (hi.toInt * 10) else none := by
  have range : (-500 ≤ hi.toInt * 10 ∧ hi.toInt * 10 ≤ 500) ↔ (-50 ≤ hi.toInt ∧ hi.toInt ≤ 50) := by omega
  exact if_congr range rfl rfl

theorem temperature_classB (hi lo : Byte) :
    temperature .b hi lo =
      if -500 ≤ (hi ++ lo : BitVec 16).toInt ∧ (hi ++ lo : BitVec 16).toInt ≤ 500 then some (hi ++ lo : BitVec 16).toInt
      else none := rfl

/-! ## The two forms of the fuel field (R31, R32) -/

/-- The full flag is the low bit of the flags byte. -/
theorem fullFlag_iff_odd (flags : Byte) : flags.getLsbD 0 = true ↔ flags.toNat % 2 = 1 := by
  rw [BitVec.getLsbD, Nat.testBit_zero, decide_eq_true_iff]

theorem fuelFieldA_eq (digits flags : Byte) :
    fuelFieldA digits flags =
      if flags.toNat % 2 = 1 then .valid 100
      else if digits.toNat / 16 ≤ 9 ∧ digits.toNat % 16 ≤ 9 then .valid (10 * (digits.toNat / 16) + digits.toNat % 16)
      else .invalid :=
  if_congr (fullFlag_iff_odd flags) rfl rfl

/-- R32's three rows; the clamp leaves a percentage as given. -/
theorem fuelFieldB_eq (v : Byte) :
    fuelFieldB v = if v = 255 then .noSender else if v.toNat ≤ 100 then .valid v.toNat else .valid 100 := by
  have sender : v.toNat = 255 ↔ v = 255 := (BitVec.toNat_inj (y := (255 : Byte)))
  refine if_congr sender rfl ?_
  split
  case isTrue small => rw [Nat.min_eq_left small]
  case isFalse large => rw [Nat.min_eq_right (by omega)]

/-! ## The fuel level and the run of invalid fields (R33) -/

/-- The level is held for the first and the second invalid field in a row, and lost at the third. -/
theorem takeFuel_invalid (r : Readings) :
    r.takeFuel .invalid =
      { r with
        fuelLevel := if r.invalidFuelRun + 1 = 1 ∨ r.invalidFuelRun + 1 = 2 then r.fuelLevel else none
        invalidFuelRun := min (r.invalidFuelRun + 1) 255 } := by
  have held : (r.invalidFuelRun + 1 = 1 ∨ r.invalidFuelRun + 1 = 2) ↔ ¬ invalidRunLimit ≤ r.invalidFuelRun + 1 := by
    unfold invalidRunLimit
    omega
  simp only [Readings.takeFuel, held, ite_not]

/-! ## The coil term (R30, R48) -/

theorem coilTerm_of_unknown (st : Settings Nat) (p : Presence) {coil returnAir : Option Int}
    (h : coil = none ∨ returnAir = none) : coilTerm st p coil returnAir = 0 := by
  obtain rfl | rfl := h
  · cases p <;> rfl
  · cases p <;> cases coil <;> rfl

/-! ## The statement -/

/-- Settles O29: each part is the rule of its field. -/
theorem classFieldsAreDecodedByTheirRules : Obligations.ClassFieldsAreDecodedByTheirRules := by
  refine ⟨fun f => ⟨rfl, rfl, fun n h1 h2 => ?undefined⟩, temperature_classA, temperature_classB, fuelFieldA_eq,
    fuelFieldB_eq, fun st p _ _ => coilTerm_of_unknown st p,
    fun r _ => ⟨rfl, rfl, rfl, rfl, rfl, takeFuel_invalid r⟩⟩
  case undefined => rw [unitClass_ofCode_eq_none h1 h2, fuelField]

end Sys2Proof.Machine
end

