-- ==== Sys2Proof/Proofs/DoorChecks.lean ====
section
/-!
PROOFS. A permitted request in its form, and a request about one bay of the plan, as every chapter's requests meet them; the
state that BEACON SET names, and its checks in their order (06 R122, 10 R184).
-/
namespace Sys2Proof.Machine

/-! ## A request that passes the checks of the port and the form (10 R184) -/

/-- Past checks 3 and 4 the request's own rule answers. -/
theorem request_performed {α : Type} {s : State} {p : Port} {r : Request} (taken : s.Takes p)
    (permitted : requestPermitted r p = true) (a : α) (act : α → State → State × Reply) :
    s.request p r (some a) act = (act a (s.frameTaken p)).1.answer p (some r.code) (act a (s.frameTaken p)).2 := by
  rw [request_taken taken]
  simp only [State.judge, permitted, if_true, withForm]

/-- A frame's restart of the silence timer leaves the bays as they are (R176). -/
@[simp] theorem frameTaken_bays (s : State) (p : Port) : (s.frameTaken p).bays = s.bays := by
  unfold State.frameTaken State.restartSilence
  split
  case isTrue => split <;> rfl
  case isFalse => rfl

@[simp] theorem frameTaken_planned (s : State) (p : Port) (b : Nat) : (s.frameTaken p).planned b = s.planned b := by
  simp only [State.planned, State.bay?, frameTaken_bays]

/-! ## A request about one bay (10.3) -/

theorem withBay_of_not_planned {s : State} {b : Nat} (h : s.planned b = false) (act : Bay → State × Reply) :
    s.withBay b act = (s, ⟨.noSuchBay, []⟩) := by
  have absent : s.bay? b = none := Option.isNone_iff_eq_none.mp (Option.isSome_eq_false_iff.mp h)
  simp only [State.withBay, absent, Reply.bare]

/-- A request that does not read the bay's record does the same on every bay of the plan. -/
theorem withBay_const_of_planned {s : State} {b : Nat} (h : s.planned b = true) (out : State × Reply) :
    s.withBay b (fun _ => out) = out := by
  obtain ⟨r, present⟩ := Option.isSome_iff_exists.mp h
  simp only [State.withBay, present]

/-! ## BEACON SET (06 R122) -/

theorem beaconOfCode_of_one_lt {n : Nat} (h : 1 < n) : beaconOfCode n = none := by
  unfold beaconOfCode
  split
  · omega
  · omega
  · rfl

/-- The states are 0, OFF, and 1, ON (R205). -/
theorem beaconOfCode_of_le_one {v : Byte} (h : v.toNat ≤ 1) : beaconOfCode v.toNat = some (decide (v = 1)) := by
  obtain off | on : v = 0 ∨ v = 1 := by bv_omega
  · subst off; rfl
  · subst on; rfl

theorem exec_beaconSet_taken {s : State} {p : Port} (b v : Byte) (taken : s.Takes p) (port : p = .office ∨ p = .patrol) :
    exec (.beaconSet p [b, v]) s =
      .next (((s.frameTaken p).beaconSet b.toNat v.toNat).1.answer p (some 3)
        ((s.frameTaken p).beaconSet b.toNat v.toNat).2) := by
  have permitted : requestPermitted .beaconSet p = true := by obtain rfl | rfl := port <;> rfl
  exact congrArg Host.Outcome.next (request_performed taken permitted (b.toNat, v.toNat) _)

/-- The state is judged before the bay. -/
theorem beaconSet_invalid (s : State) (b : Nat) {code : Nat} (h : 1 < code) :
    s.beaconSet b code = (s, ⟨.invalid, []⟩) := by
  simp only [State.beaconSet, beaconOfCode_of_one_lt h, Reply.bare]

theorem beaconSet_noSuchBay {s : State} {b : Nat} {v : Byte} (h : v.toNat ≤ 1) (outside : s.planned b = false) :
    s.beaconSet b v.toNat = (s, ⟨.noSuchBay, []⟩) := by
  simp only [State.beaconSet, beaconOfCode_of_le_one h, withBay_of_not_planned outside]

theorem beaconSet_done {s : State} {b : Nat} {v : Byte} (h : v.toNat ≤ 1) (held : s.planned b = true) :
    s.beaconSet b v.toNat =
      (s.modDoor b fun d => { d with beaconWanted := decide (v = 1), autoRaised := false }, ⟨.done, []⟩) := by
  simp only [State.beaconSet, beaconOfCode_of_le_one h, withBay_const_of_planned held, Reply.done]

/-! ## The statement -/

/-- Settles O48: the three outcomes of the request's own checks, in their order, each carried through the answer. -/
theorem beaconSetRecordsTheWantedState : Obligations.BeaconSetRecordsTheWantedState := by
  intro s p b v taken port
  rw [exec_beaconSet_taken b v taken port]
  refine ⟨fun bad => ?invalid, fun good outside => ?noSuchBay, fun good held => ?done⟩
  case invalid => rw [beaconSet_invalid _ _ bad]
  case noSuchBay => rw [beaconSet_noSuchBay good ((frameTaken_planned s p _).trans outside)]
  case done => rw [beaconSet_done good ((frameTaken_planned s p _).trans held)]

end Sys2Proof.Machine
end

