-- ==== Sys2Proof/Proofs/Claims.lean ====
section
/-!
PROOFS. What the frame's restart of the silence timer leaves of the state that CLAIM and CLAIM RENEW read; R129's checks in
their order; the three outcomes of CLAIM RENEW (07 R129, R133).
-/
namespace Sys2Proof.Machine

/-! ## What a frame taken leaves (10 R176) -/

/-- A frame taken changes at most the silence timer. -/
theorem frameTaken_eq_with_timer (s : State) (p : Port) : ∃ timer, s.frameTaken p = { s with silenceTimer := timer } := by
  unfold State.frameTaken State.restartSilence
  split
  case isTrue => split <;> exact ⟨_, rfl⟩
  case isFalse => exact ⟨_, rfl⟩

@[simp] theorem frameTaken_claims (s : State) (p : Port) : (s.frameTaken p).claims = s.claims := by
  obtain ⟨_, changed⟩ := frameTaken_eq_with_timer s p
  rw [changed]

@[simp] theorem frameTaken_now (s : State) (p : Port) : (s.frameTaken p).now = s.now := by
  obtain ⟨_, changed⟩ := frameTaken_eq_with_timer s p
  rw [changed]

@[simp] theorem frameTaken_claimOf (s : State) (p : Port) (b : Nat) : (s.frameTaken p).claimOf b = s.claimOf b := by
  simp only [State.claimOf, frameTaken_claims]

@[simp] theorem frameTaken_bay? (s : State) (p : Port) (b : Nat) : (s.frameTaken p).bay? b = s.bay? b := by
  simp only [State.bay?, frameTaken_bays]

/-- The checks of R129 read nothing that a frame changes. -/
@[simp] theorem frameTaken_claimRefusal (s : State) (p q : Port) (b lease : Nat) :
    (s.frameTaken p).claimRefusal q b lease = s.claimRefusal q b lease := by
  obtain ⟨_, changed⟩ := frameTaken_eq_with_timer s p
  rw [changed]
  rfl

/-! ## The bays a claim can name (07 R127, 08 R145) -/

/-- The committed plan holds no bay 0 and none above 127. -/
theorem not_planned_of_outside_addresses {s : State} (addresses : s.AddressesOk) {b : Nat} (outside : b = 0 ∨ 127 < b) :
    s.planned b = false := by
  refine Bool.eq_false_iff.mpr fun held => ?_
  obtain ⟨low, high⟩ := addresses.committed b ((findKey_isSome_iff b s.bays).mp held)
  omega

theorem isMarked_iff (s : State) (b : Nat) : s.isMarked b = true ↔ b ∈ s.marked := List.contains_iff_mem

/-- What check 2 of R129 tests. -/
theorem unclaimable_iff (s : State) (b : Nat) :
    (!s.planned b || s.isMarked b) = true ↔ s.planned b = false ∨ b ∈ s.marked := by
  rw [Bool.or_eq_true, Bool.not_eq_true', isMarked_iff]

theorem unclaimable_eq_false {s : State} {b : Nat} (held : s.planned b = true) (kept : b ∉ s.marked) :
    (!s.planned b || s.isMarked b) = false := by
  rw [Bool.eq_false_iff, Ne, unclaimable_iff, held]
  exact fun gone => gone.elim Bool.noConfusion kept

/-! ## The checks of CLAIM (R129) -/

/-- Check 1. -/
theorem claimRefusal_invalid (s : State) (p : Port) (b : Nat) {lease : Nat} (long : 240 < lease) :
    s.claimRefusal p b lease = some ⟨.invalid, []⟩ := if_pos long

/-- Check 2. -/
theorem claimRefusal_noSuchBay {s : State} (p : Port) {b lease : Nat} (fits : lease ≤ 240)
    (gone : s.planned b = false ∨ b ∈ s.marked) : s.claimRefusal p b lease = some ⟨.noSuchBay, []⟩ := by
  simp only [State.claimRefusal, maxLease, Nat.not_lt.mpr fits, (unclaimable_iff s b).mpr gone, if_true, if_false,
    Reply.bare]

section Claimable

variable {s : State} {p : Port} {b lease : Nat} (fits : lease ≤ 240) (held : s.planned b = true) (kept : b ∉ s.marked)
include fits held kept

/-- Check 3. -/
theorem claimRefusal_held {c : Claim} (claimed : s.claimOf b = some c) :
    s.claimRefusal p b lease = some ⟨.held, [byteOf (portCode c.holder), byteOf (claimKindCode c.holder)]⟩ := by
  simp only [State.claimRefusal, maxLease, Nat.not_lt.mpr fits, unclaimable_eq_false held kept, Bool.false_eq_true,
    if_false, claimed]

/-- Checks 4 and 5: a bay of the plan that no port has claimed is refused for want of room only. -/
theorem claimRefusal_unclaimed (free : s.claimOf b = none) :
    s.claimRefusal p b lease =
      if 12 ≤ (s.port p).claimCount then some ⟨.portLimit, []⟩
      else if 32 ≤ s.claims.length then some ⟨.tableFull, []⟩
      else none := by
  simp only [State.claimRefusal, maxLease, Nat.not_lt.mpr fits, unclaimable_eq_false held kept, Bool.false_eq_true,
    if_false, free]
  rfl

end Claimable

/-- A refusal changes nothing. -/
theorem claim_refused {s : State} {p : Port} {b lease : Nat} {refusal : Reply}
    (fails : s.claimRefusal p b lease = some refusal) : s.claim p b lease = (s, refusal) := by
  simp only [State.claim, fails]

/-- A refused CLAIM leaves the frame's restart of the silence timer and the answer. -/
theorem exec_claim_refused {s : State} {p : Port} {b lease : Byte} {refusal : Reply} (taken : s.Takes p)
    (fails : s.claimRefusal p b.toNat lease.toNat = some refusal) :
    exec (.claim p [b, lease]) s = .next ((s.frameTaken p).answer p (some 4) refusal) := by
  have unchanged : (s.frameTaken p).claim p b.toNat lease.toNat = (s.frameTaken p, refusal) :=
    claim_refused ((frameTaken_claimRefusal s p p _ _).trans fails)
  calc exec (.claim p [b, lease]) s
      = .next (((s.frameTaken p).claim p b.toNat lease.toNat).1.answer p (some 4)
          ((s.frameTaken p).claim p b.toNat lease.toNat).2) :=
        congrArg Host.Outcome.next (request_performed taken rfl (b.toNat, lease.toNat) _)
    _ = .next ((s.frameTaken p).answer p (some 4) refusal) := by rw [unchanged]

/-- Settles O52: each clause is the check that fails first, carried through the answer. -/
theorem claimIsRefusedByTheFirstFailingCheck : Obligations.ClaimIsRefusedByTheFirstFailingCheck := by
  intro s p b lease taken addresses
  refine ⟨fun long => ?invalid, fun fits => ⟨fun gone => ?noSuchBay, fun held kept =>
    ⟨fun c claimed => ?held, fun free full => ?portLimit, fun free room full => ?tableFull⟩⟩⟩
  case invalid => exact exec_claim_refused taken (claimRefusal_invalid s p _ long)
  case noSuchBay =>
    have gone' : s.planned b.toNat = false ∨ b.toNat ∈ s.marked := by
      obtain zero | high | absent | marked := gone
      · exact .inl (not_planned_of_outside_addresses addresses (.inl zero))
      · exact .inl (not_planned_of_outside_addresses addresses (.inr high))
      · exact .inl absent
      · exact .inr marked
    exact exec_claim_refused taken (claimRefusal_noSuchBay p fits gone')
  case held => exact exec_claim_refused taken (claimRefusal_held fits held kept claimed)
  case portLimit =>
    exact exec_claim_refused taken ((claimRefusal_unclaimed fits held kept free).trans (if_pos full))
  case tableFull =>
    exact exec_claim_refused taken ((claimRefusal_unclaimed fits held kept free).trans
      ((if_neg (Nat.not_le.mpr room)).trans (if_pos full)))

/-! ## CLAIM RENEW (R133) -/

/-- A claim's kind has its holder port's code (R128). -/
theorem claimKindCode_eq_portCode (p : Port) : claimKindCode p = portCode p := by cases p <;> rfl

theorem ownClaim_of_holder {s : State} {p : Port} {b : Nat} {c : Claim} (claimed : s.claimOf b = some c)
    (own : c.holder = p) : s.ownClaim p b = some c := by
  simp only [State.ownClaim, claimed, own, if_true]

theorem ownClaim_eq_none {s : State} {p : Port} {b : Nat} (others : ∀ c, s.claimOf b = some c → c.holder ≠ p) :
    s.ownClaim p b = none := by
  cases claimed : s.claimOf b with
  | none => simp only [State.ownClaim, claimed]
  | some c => simp only [State.ownClaim, claimed, others c claimed, if_false]

/-- The length asked for on a bay of the plan (R128). -/
theorem renewLength_of_bay {s : State} {b : Nat} {r : Bay} (present : s.bay? b = some r) (lease : Byte) :
    s.renewLength b lease.toNat = if lease = 0 then r.settings.defaultLease else lease.toNat := by
  have zero : lease.toNat = 0 ↔ lease = 0 := BitVec.toNat_inj (y := (0 : Byte))
  simp only [State.renewLength, present, leaseLength, zero]

/-- The argument is judged before the claim. -/
theorem claimRenew_invalid (s : State) (p : Port) (b : Nat) {lease : Nat} (long : 240 < lease) :
    s.claimRenew p b lease = (s, ⟨.invalid, []⟩) := if_pos long

theorem claimRenew_noClaim {s : State} {p : Port} {b lease : Nat} (fits : lease ≤ 240) (unowned : s.ownClaim p b = none) :
    s.claimRenew p b lease = (s, ⟨.noClaim, []⟩) := by
  simp only [State.claimRenew, maxLease, Nat.not_lt.mpr fits, if_false, unowned, Reply.bare]

theorem claimRenew_done {s : State} {p : Port} {b lease : Nat} {c : Claim} (fits : lease ≤ 240)
    (claimed : s.claimOf b = some c) (own : c.holder = p) :
    s.claimRenew p b lease =
      (s.renewClaim b (s.renewLength b lease), ⟨.done, [byteOf (portCode p), byteOf (s.renewLength b lease)]⟩) := by
  simp only [State.claimRenew, maxLease, Nat.not_lt.mpr fits, if_false, ownClaim_of_holder claimed own, own,
    claimKindCode_eq_portCode, Reply.done]

theorem exec_claimRenew_taken {s : State} {p : Port} (b lease : Byte) (taken : s.Takes p) :
    exec (.claimRenew p [b, lease]) s =
      .next (((s.frameTaken p).claimRenew p b.toNat lease.toNat).1.answer p (some 6)
        ((s.frameTaken p).claimRenew p b.toNat lease.toNat).2) :=
  congrArg Host.Outcome.next (request_performed taken rfl (b.toNat, lease.toNat) _)

/-- The restart on the state that a frame leaves: its clock and its table are those before the frame. -/
theorem renewClaim_frameTaken (s : State) (p : Port) (b minutes : Nat) :
    (s.frameTaken p).renewClaim b minutes =
      { s.frameTaken p with
        claims := mapKey b (fun c => { c with leaseMinutes := minutes, leaseEnd := s.now / 40 + 60 * minutes })
          s.claims } := by
  simp only [State.renewClaim, State.leaseEndAfter, State.seconds, stepsPerSecond, frameTaken_now, frameTaken_claims]

/-- Settles O54: the three outcomes of the request's own checks, in their order, each carried through the answer. -/
theorem claimRenewRestartsTheLease : Obligations.ClaimRenewRestartsTheLease := by
  intro s p b lease taken
  rw [exec_claimRenew_taken b lease taken]
  refine ⟨fun long => ?invalid, fun fits others => ?noClaim, fun c r minutes fits claimed own present asked => ?done⟩
  case invalid => rw [claimRenew_invalid _ _ _ long]
  case noClaim =>
    have unowned : (s.frameTaken p).ownClaim p b.toNat = none :=
      ownClaim_eq_none fun c claimed => others c ((frameTaken_claimOf s p _).symm.trans claimed)
    rw [claimRenew_noClaim fits unowned]
  case done =>
    have length : (s.frameTaken p).renewLength b.toNat lease.toNat = minutes :=
      (renewLength_of_bay ((frameTaken_bay? s p _).trans present) lease).trans asked.symm
    rw [claimRenew_done fits ((frameTaken_claimOf s p _).trans claimed) own, length, renewClaim_frameTaken]

end Sys2Proof.Machine
end

section
/-!
PROOFS. What the checks of a staging list let pass, what a list of settings leaves in a field that it names and in any other, the
outcomes of the five staging requests on a state, and the statements about them (08 R148 to R153).
-/
namespace Sys2Proof.Machine

/-! ## Setting one field and reading one (11 R206) -/

@[simp] theorem Settings.get_set {α : Type} (p : Settings α) (f g : SettingField) (v : α) :
    (p.set f v).get g = if g = f then v else p.get g := by
  cases f <;> cases g <;> rfl

@[simp] theorem YardOnly.get_set (p : YardOnly) (f g : YardField) (v : Nat) :
    (p.set f v).get g = if g = f then v else p.get g := by
  cases f <;> cases g <;> rfl

/-! ## The value a list gives a field -/

theorem valueNamed_cons_of_named {F : PlanField} {x : StageSetting} (named : x.field = some F) (l : List StageSetting) :
    valueNamed F (x :: l) = some x.value := by
  simp [valueNamed, named]

theorem valueNamed_cons_of_other {F : PlanField} {x : StageSetting} (other : x.field ≠ some F) (l : List StageSetting) :
    valueNamed F (x :: l) = valueNamed F l := by
  simp [valueNamed, other]

theorem valueNamed_eq_none_iff {F : PlanField} {l : List StageSetting} :
    valueNamed F l = none ↔ some F ∉ l.map StageSetting.field := by
  simp [valueNamed]

theorem namesField_eq_isSome (F : PlanField) (l : List StageSetting) : namesField F l = (valueNamed F l).isSome := by
  rw [namesField, valueNamed, Option.isSome_map, List.isSome_find?]

/-! ## The checks of a list (R149 to R151) -/

theorem namesTwice_eq_false_iff (l : List StageSetting) : namesTwice l = false ↔ (l.map StageSetting.field).Nodup := by
  induction l with
  | nil => simp [namesTwice]
  | cons x l ih =>
    have fresh : l.any (fun y => x.field == y.field) = false ↔ x.field ∉ l.map StageSetting.field := by
      simp only [List.any_eq_false, beq_iff_eq, List.mem_map, not_exists, not_and, eq_comm (a := x.field)]
    rw [namesTwice, Bool.or_eq_false_iff, ih, fresh, List.map_cons, List.nodup_cons]

section Checks

variable {allowed : StageSetting → Bool} {l : List StageSetting}

theorem settingsOk_iff : settingsOk allowed l = true ↔
    l ≠ [] ∧ l.length ≤ 16 ∧ (∀ x ∈ l, allowed x = true) ∧ (l.map StageSetting.field).Nodup := by
  rw [settingsOk, maxSettings, Bool.and_eq_true, Bool.and_eq_true, Bool.and_eq_true, decide_eq_true_iff,
    decide_eq_true_iff, List.all_eq_true, Bool.not_eq_true', namesTwice_eq_false_iff, Nat.one_le_iff_ne_zero,
    Ne, List.length_eq_zero_iff, and_assoc, and_assoc]

theorem settingsOk_eq_false_iff : settingsOk allowed l = false ↔
    l = [] ∨ 16 < l.length ∨ (∃ x ∈ l, allowed x = false) ∨ ¬(l.map StageSetting.field).Nodup := by
  simp only [← Bool.not_eq_true, settingsOk_iff, not_and_or, not_not, not_le, not_forall, exists_prop]

end Checks

theorem okYard_iff (x : StageSetting) :
    x.okYard = true ↔ x.value ≠ none ∧ x.field ∉ [none, some .row, some .genset, some .departure] := by
  obtain ⟨field, value⟩ := x
  rcases field with _ | (_ | _ | _ | f | f) <;> cases value <;> simp [StageSetting.okYard]

theorem okYard_eq_false_iff (x : StageSetting) :
    x.okYard = false ↔ x.value = none ∨ x.field ∈ [none, some .row, some .genset, some .departure] := by
  rw [← Bool.not_eq_true, okYard_iff, not_and_or, not_not, not_not]

theorem okRow_iff (x : StageSetting) : x.okRow = true ↔ ∃ f, x.field = some (.setting f) := by
  obtain ⟨field, value⟩ := x
  rcases field with _ | (_ | _ | _ | f | f) <;> simp [StageSetting.okRow]

theorem okRow_eq_false_iff (x : StageSetting) : x.okRow = false ↔ ∀ f, x.field ≠ some (.setting f) := by
  rw [← Bool.not_eq_true, okRow_iff, not_exists]

theorem okBay_iff (x : StageSetting) :
    x.okBay = true ↔ x.field ≠ none ∧ (∀ f, x.field ≠ some (.yardOnly f)) ∧
      (x.value = none → x.field ∉ [some .row, some .genset]) := by
  obtain ⟨field, value⟩ := x
  rcases field with _ | (_ | _ | _ | f | f) <;> cases value <;> simp [StageSetting.okBay]

theorem okBay_eq_false_iff (x : StageSetting) :
    x.okBay = false ↔ x.field = none ∨ (∃ f, x.field = some (.yardOnly f)) ∨
      x.value = none ∧ x.field ∈ [some .row, some .genset] := by
  simp only [← Bool.not_eq_true, okBay_iff, not_and_or, not_forall, not_not, exists_prop, Ne]

/-! ## What one setting changes -/

theorem Yard.get_settings_stage (y : Yard) (x : StageSetting) (f : SettingField) :
    (y.stage x).settings.get f =
      if x.field = some (.setting f) then x.value.getD (y.settings.get f) else y.settings.get f := by
  obtain ⟨field, value⟩ := x
  rcases field with _ | (_ | _ | _ | g | g) <;> cases value <;> simp [Yard.stage, eq_comm]

theorem Yard.get_only_stage (y : Yard) (x : StageSetting) (f : YardField) :
    (y.stage x).only.get f = if x.field = some (.yardOnly f) then x.value.getD (y.only.get f) else y.only.get f := by
  obtain ⟨field, value⟩ := x
  rcases field with _ | (_ | _ | _ | g | g) <;> cases value <;> simp [Yard.stage, eq_comm]

theorem Profile.get_stage (q : Profile) (x : StageSetting) (f : SettingField) :
    (Profile.stage q x).get f = if x.field = some (.setting f) then x.value else q.get f := by
  obtain ⟨field, value⟩ := x
  rcases field with _ | (_ | _ | _ | g | g) <;> simp [Profile.stage, eq_comm]

section OneSettingOfABay

variable (e : PlanBay) (x : StageSetting)

theorem PlanBay.row_stage : (e.stage x).row = if x.field = some .row then x.value.getD e.row else e.row := by
  obtain ⟨field, value⟩ := x
  rcases field with _ | (_ | _ | _ | g | g) <;> simp [PlanBay.stage]

theorem PlanBay.genset_stage :
    (e.stage x).genset = if x.field = some .genset then x.value.getD e.genset else e.genset := by
  obtain ⟨field, value⟩ := x
  rcases field with _ | (_ | _ | _ | g | g) <;> simp [PlanBay.stage]

theorem PlanBay.departure_stage :
    (e.stage x).departure = if x.field = some .departure then x.value else e.departure := by
  obtain ⟨field, value⟩ := x
  rcases field with _ | (_ | _ | _ | g | g) <;> simp [PlanBay.stage]

theorem PlanBay.get_overrides_stage (f : SettingField) :
    (e.stage x).overrides.get f = if x.field = some (.setting f) then x.value else e.overrides.get f := by
  obtain ⟨field, value⟩ := x
  rcases field with _ | (_ | _ | _ | g | g) <;> simp [PlanBay.stage, eq_comm]

end OneSettingOfABay

/-! ## What a list of settings changes -/

section Fold

variable {β γ : Type} {stage : β → StageSetting → β} {read : β → γ} {F : PlanField} {l : List StageSetting}

/-- A field is changed by the one setting that names it, and by no other. -/
theorem read_foldl_stage {given : Option Nat → γ → γ}
    (reads : ∀ b x, read (stage b x) = if x.field = some F then given x.value (read b) else read b)
    (once : (l.map StageSetting.field).Nodup) (b : β) :
    read (l.foldl stage b) = (valueNamed F l).elim (read b) fun v => given v (read b) := by
  induction l generalizing b with
  | nil => rfl
  | cons x l ih =>
    obtain ⟨fresh, once⟩ := List.nodup_cons.mp once
    rw [List.foldl_cons, ih once, reads]
    by_cases named : x.field = some F
    · have unnamed : valueNamed F l = none := valueNamed_eq_none_iff.mpr (named ▸ fresh)
      rw [unnamed, valueNamed_cons_of_named named, if_pos named]
      rfl
    · rw [valueNamed_cons_of_other named, if_neg named]

/-- A field that cannot be absent takes the value given. -/
theorem read_foldl_stage_required {read : β → Nat}
    (reads : ∀ b x, read (stage b x) = if x.field = some F then x.value.getD (read b) else read b)
    (once : (l.map StageSetting.field).Nodup) (b : β) :
    read (l.foldl stage b) = ((valueNamed F l).getD none).getD (read b) := by
  rw [read_foldl_stage (given := Option.getD) reads once]
  cases valueNamed F l <;> rfl

/-- A field that can be absent takes the value given or is made absent. -/
theorem read_foldl_stage_optional {read : β → Option Nat}
    (reads : ∀ b x, read (stage b x) = if x.field = some F then x.value else read b)
    (once : (l.map StageSetting.field).Nodup) (b : β) :
    read (l.foldl stage b) = (valueNamed F l).getD (read b) := by
  rw [read_foldl_stage (given := fun v _ => v) reads once]
  cases valueNamed F l <;> rfl

end Fold

/-! ## A staging request taken (10 R176, 08 R148) -/

@[simp] theorem frameTaken_staged (s : State) (p : Port) : (s.frameTaken p).staged = s.staged := by
  obtain ⟨_, changed⟩ := frameTaken_eq_with_timer s p
  rw [changed]

@[simp] theorem frameTaken_commitPending (s : State) (p : Port) : (s.frameTaken p).commitPending = s.commitPending := by
  obtain ⟨_, changed⟩ := frameTaken_eq_with_timer s p
  rw [changed]

@[simp] theorem frameTaken_committed (s : State) (p : Port) : (s.frameTaken p).committed = s.committed := by
  obtain ⟨_, changed⟩ := frameTaken_eq_with_timer s p
  rw [changed]
  rfl

/-- A request whose argument bytes are in their form is answered by its own rule. -/
theorem request_parsed {α : Type} {s : State} {p : Port} {r : Request} {form : Option α} {a : α} (taken : s.Takes p)
    (permitted : requestPermitted r p = true) (parsed : form = some a) (act : α → State → State × Reply) :
    s.request p r form act = (act a (s.frameTaken p)).1.answer p (some r.code) (act a (s.frameTaken p)).2 := by
  rw [parsed, request_performed taken permitted]

section Pending

variable {s : State}

theorem staging_of_pending (pending : s.commitPending = true) (act : State × Reply) :
    s.staging act = (s, ⟨.commitPending, []⟩) := if_pos pending

theorem staging_of_free (free : s.commitPending = false) (act : State × Reply) : s.staging act = act :=
  if_neg (Bool.eq_false_iff.mp free)

end Pending

/-! ## STAGE YARD (R149) -/

section StageYard

variable {s : State} {l : List StageSetting}

theorem stageYard_pending (pending : s.commitPending = true) : s.stageYard l = (s, ⟨.commitPending, []⟩) :=
  staging_of_pending pending _

theorem stageYard_invalid (free : s.commitPending = false) (bad : settingsOk StageSetting.okYard l = false) :
    s.stageYard l = (s, ⟨.invalid, []⟩) :=
  (staging_of_free free _).trans (if_neg (Bool.eq_false_iff.mp bad))

theorem stageYard_done (free : s.commitPending = false) (good : settingsOk StageSetting.okYard l = true) :
    s.stageYard l =
      ({ s with staged := { s.staged with yard := l.foldl Yard.stage s.staged.yard } }, ⟨.done, []⟩) :=
  (staging_of_free free _).trans (if_pos good)

theorem exec_stageYard_taken {args : List Byte} (taken : s.Takes .office) (parsed : countedSettings args = some l) :
    exec (.stageYard .office args) s =
      .next (((s.frameTaken .office).stageYard l).1.answer .office (some 24) ((s.frameTaken .office).stageYard l).2) :=
  congrArg Host.Outcome.next (request_parsed taken rfl parsed _)

end StageYard

/-- Settles O14: the three outcomes of the request's checks; on DONE each field is read through the list's fold. -/
theorem stageYardSetsTheNamedFields : Obligations.StageYardSetsTheNamedFields := by
  intro s args l taken parsed
  rw [exec_stageYard_taken taken parsed]
  have same := frameTaken_commitPending s .office
  refine ⟨fun pending => ?pending, fun free bad => ?invalid, fun free nonempty short once allowed => ?done⟩
  case pending => rw [stageYard_pending (same.trans pending)]
  case invalid =>
    have refused : settingsOk StageSetting.okYard l = false :=
      settingsOk_eq_false_iff.mpr (by simpa only [okYard_eq_false_iff] using bad)
    rw [stageYard_invalid (same.trans free) refused]
  case done =>
    have good : settingsOk StageSetting.okYard l = true :=
      settingsOk_iff.mpr ⟨nonempty, short, fun x named => (okYard_iff x).mpr (allowed x named), once⟩
    rw [stageYard_done (same.trans free) good, frameTaken_staged]
    refine ⟨_, rfl, fun f => ?settings, fun f => ?only⟩
    case settings =>
      exact read_foldl_stage_required (read := fun y : Yard => y.settings.get f)
        (fun y x => y.get_settings_stage x f) once _
    case only =>
      exact read_foldl_stage_required (read := fun y : Yard => y.only.get f) (fun y x => y.get_only_stage x f) once _

/-! ## STAGE ROW (R150) -/

section StageRow

variable {s : State} {row : Nat} {l : List StageSetting}

theorem stageRow_pending (pending : s.commitPending = true) : s.stageRow row l = (s, ⟨.commitPending, []⟩) :=
  staging_of_pending pending _

theorem stageRow_invalid (free : s.commitPending = false)
    (bad : 7 < row ∨ settingsOk StageSetting.okRow l = false) : s.stageRow row l = (s, ⟨.invalid, []⟩) := by
  have refused : ¬(decide (row ≤ 7) && settingsOk StageSetting.okRow l) = true := by
    rw [Bool.and_eq_true, decide_eq_true_iff, not_and_or, not_le, Bool.not_eq_true]
    exact bad
  exact (staging_of_free free _).trans (if_neg refused)

/-- The row edited in its place. -/
theorem modify_row {p : Plan} (inPlan : row < p.rows.length) (edit : Profile → Profile) :
    p.rows.modify row edit = p.rows.set row (edit (p.row row)) := by
  rw [List.modify_eq_set_get edit inPlan, Plan.row, List.getD_eq_getElem _ _ inPlan, List.get_eq_getElem]

theorem stageRow_done (free : s.commitPending = false) (low : row ≤ 7)
    (good : settingsOk StageSetting.okRow l = true) (eight : s.staged.rows.length = 8) :
    s.stageRow row l =
      ({ s with staged :=
          { s.staged with rows := s.staged.rows.set row (l.foldl Profile.stage (s.staged.row row)) } }, ⟨.done, []⟩) := by
  have admitted : (decide (row ≤ 7) && settingsOk StageSetting.okRow l) = true := by rw [good, decide_eq_true low]; rfl
  rw [State.stageRow, staging_of_free free, if_pos admitted, modify_row (by omega), Reply.done]

theorem exec_stageRow_taken {args : List Byte} (taken : s.Takes .office) (parsed : namedSettings args = some (row, l)) :
    exec (.stageRow .office args) s =
      .next (((s.frameTaken .office).stageRow row l).1.answer .office (some 23)
        ((s.frameTaken .office).stageRow row l).2) :=
  congrArg Host.Outcome.next (request_parsed taken rfl parsed _)

end StageRow

/-- Settles O15: the three outcomes of the request's checks; on DONE each field is read through the list's fold. -/
theorem stageRowSetsTheNamedFields : Obligations.StageRowSetsTheNamedFields := by
  intro s args row l taken parsed eight
  rw [exec_stageRow_taken taken parsed]
  have same := frameTaken_commitPending s .office
  refine ⟨fun pending => ?pending, fun free bad => ?invalid, fun free low nonempty short once allowed => ?done⟩
  case pending => rw [stageRow_pending (same.trans pending)]
  case invalid =>
    have refused : 7 < row ∨ settingsOk StageSetting.okRow l = false := by
      simpa only [settingsOk_eq_false_iff, okRow_eq_false_iff] using bad
    rw [stageRow_invalid (same.trans free) refused]
  case done =>
    have good : settingsOk StageSetting.okRow l = true :=
      settingsOk_iff.mpr ⟨nonempty, short, fun x named => (okRow_iff x).mpr (allowed x named), once⟩
    rw [stageRow_done (same.trans free) low good (by rw [frameTaken_staged, eight]), frameTaken_staged]
    refine ⟨_, rfl, fun f => ?_⟩
    exact read_foldl_stage_optional (read := fun q : Profile => q.get f) (fun q x => q.get_stage x f) once _

/-! ## STAGE BAY (R151) -/

theorem addressOk_iff (b : Nat) : addressOk b = true ↔ 1 ≤ b ∧ b ≤ 127 := by
  rw [addressOk, Bool.and_eq_true, decide_eq_true_iff, decide_eq_true_iff]

section StageBay

variable {s : State} {b : Nat} {l : List StageSetting}

theorem stageBay_pending (pending : s.commitPending = true) : s.stageBay b l = (s, ⟨.commitPending, []⟩) :=
  staging_of_pending pending _

theorem stageBay_noSuchBay (free : s.commitPending = false) (outside : b = 0 ∨ 127 < b) :
    s.stageBay b l = (s, ⟨.noSuchBay, []⟩) := by
  have refused : addressOk b = false := by
    rw [← Bool.not_eq_true, addressOk_iff]
    omega
  simp only [State.stageBay, staging_of_free free, refused, Bool.not_false, if_true, Reply.bare]

theorem stageBay_invalid (free : s.commitPending = false) (address : addressOk b = true)
    (bad : settingsOk StageSetting.okBay l = false) : s.stageBay b l = (s, ⟨.invalid, []⟩) := by
  simp only [State.stageBay, staging_of_free free, address, bad, Bool.not_true, Bool.not_false, Bool.false_eq_true,
    if_true, if_false, Reply.bare]

section GoodList

variable (free : s.commitPending = false) (address : addressOk b = true)
  (good : settingsOk StageSetting.okBay l = true)
include free address good

/-- A new record needs its two required fields. -/
theorem stageBay_incomplete (absent : findKey b s.staged.bays = none)
    (missing : valueNamed .row l = none ∨ valueNamed .genset l = none) : s.stageBay b l = (s, ⟨.invalid, []⟩) := by
  have refused : (namesField .row l && namesField .genset l) = false := by
    rw [namesField_eq_isSome, namesField_eq_isSome, Bool.and_eq_false_iff, Option.isSome_eq_false_iff,
      Option.isSome_eq_false_iff, Option.isNone_iff_eq_none, Option.isNone_iff_eq_none]
    exact missing
  simp only [State.stageBay, staging_of_free free, address, good, absent, refused, Bool.not_true, Bool.false_eq_true,
    if_false, Reply.bare]

/-- The list edits the bay's record, or the blank one where the bay has none. -/
theorem stageBay_done {old : PlanBay}
    (record : findKey b s.staged.bays = some old ∨
      findKey b s.staged.bays = none ∧ old = PlanBay.blank ∧ valueNamed .row l ≠ none ∧ valueNamed .genset l ≠ none) :
    s.stageBay b l =
      ({ s with staged := { s.staged with bays := putKey b (l.foldl PlanBay.stage old) s.staged.bays } },
       ⟨.done, []⟩) := by
  obtain present | ⟨absent, rfl, row, genset⟩ := record
  · simp only [State.stageBay, staging_of_free free, address, good, present, Bool.not_true, Bool.false_eq_true,
      if_false, Reply.done]
  · have complete : (namesField .row l && namesField .genset l) = true := by
      rw [namesField_eq_isSome, namesField_eq_isSome, Option.isSome_iff_ne_none.mpr row,
        Option.isSome_iff_ne_none.mpr genset]
      rfl
    simp only [State.stageBay, staging_of_free free, address, good, absent, complete, Bool.not_true,
      Bool.false_eq_true, if_false, if_true, Reply.done]

end GoodList

theorem exec_stageBay_taken {args : List Byte} (taken : s.Takes .office) (parsed : namedSettings args = some (b, l)) :
    exec (.stageBay .office args) s =
      .next (((s.frameTaken .office).stageBay b l).1.answer .office (some 20)
        ((s.frameTaken .office).stageBay b l).2) :=
  congrArg Host.Outcome.next (request_parsed taken rfl parsed _)

end StageBay

/-- Settles O16: the outcomes of the request's checks, in their order; on DONE each field is read through the list's fold. -/
theorem stageBayMakesOrEditsTheRecord : Obligations.StageBayMakesOrEditsTheRecord := by
  intro s args b l taken parsed
  rw [exec_stageBay_taken taken parsed]
  have same := frameTaken_commitPending s .office
  have sameRecord : findKey b (s.frameTaken .office).staged.bays = findKey b s.staged.bays := by rw [frameTaken_staged]
  refine ⟨fun pending => ?pending, fun free outside => ?noSuchBay, fun free low high bad => ?invalid,
    fun free low high nonempty short once allowed old record => ?done⟩
  case pending => rw [stageBay_pending (same.trans pending)]
  case noSuchBay => rw [stageBay_noSuchBay (same.trans free) outside]
  case invalid =>
    have address : addressOk b = true := (addressOk_iff b).mpr ⟨low, high⟩
    have refused : settingsOk StageSetting.okBay l = false ∨
        findKey b s.staged.bays = none ∧ (valueNamed .row l = none ∨ valueNamed .genset l = none) := by
      simpa only [settingsOk_eq_false_iff, okBay_eq_false_iff, or_assoc] using bad
    cases list : settingsOk StageSetting.okBay l with
    | false => rw [stageBay_invalid (same.trans free) address list]
    | true =>
      obtain ⟨absent, missing⟩ := refused.resolve_left (by rw [list]; exact Bool.noConfusion)
      rw [stageBay_incomplete (same.trans free) address list (sameRecord.trans absent) missing]
  case done =>
    have good : settingsOk StageSetting.okBay l = true :=
      settingsOk_iff.mpr ⟨nonempty, short, fun x named => (okBay_iff x).mpr (allowed x named), once⟩
    rw [stageBay_done (same.trans free) ((addressOk_iff b).mpr ⟨low, high⟩) good (sameRecord.symm ▸ record),
      frameTaken_staged]
    exact ⟨_, rfl, read_foldl_stage_required PlanBay.row_stage once old,
      read_foldl_stage_required PlanBay.genset_stage once old,
      read_foldl_stage_optional PlanBay.departure_stage once old,
      fun f => read_foldl_stage_optional (read := fun e : PlanBay => e.overrides.get f)
        (fun e x => e.get_overrides_stage x f) once old⟩

/-! ## STAGE DROP and STAGE CLEAR (R152, R153) -/

section DropAndClear

variable {s : State} {b : Nat}

theorem stageDrop_pending (pending : s.commitPending = true) : s.stageDrop b = (s, ⟨.commitPending, []⟩) :=
  staging_of_pending pending _

theorem stageDrop_noSuchBay (free : s.commitPending = false) (absent : findKey b s.staged.bays = none) :
    s.stageDrop b = (s, ⟨.noSuchBay, []⟩) :=
  (staging_of_free free _).trans (if_neg (by rw [absent]; exact Bool.noConfusion))

theorem stageDrop_done (free : s.commitPending = false) (present : (findKey b s.staged.bays).isSome = true) :
    s.stageDrop b = ({ s with staged := { s.staged with bays := dropKey b s.staged.bays } }, ⟨.done, []⟩) :=
  (staging_of_free free _).trans (if_pos present)

theorem exec_stageDrop_taken (b : Byte) (taken : s.Takes .office) :
    exec (.stageDrop .office [b]) s =
      .next (((s.frameTaken .office).stageDrop b.toNat).1.answer .office (some 22)
        ((s.frameTaken .office).stageDrop b.toNat).2) :=
  congrArg Host.Outcome.next (request_performed taken rfl b.toNat _)

theorem stageClear_pending (pending : s.commitPending = true) : s.stageClear = (s, ⟨.commitPending, []⟩) :=
  staging_of_pending pending _

theorem stageClear_done (free : s.commitPending = false) :
    s.stageClear = ({ s with staged := s.committed }, ⟨.done, []⟩) := staging_of_free free _

theorem exec_stageClear_taken (taken : s.Takes .office) :
    exec (.stageClear .office []) s =
      .next ((s.frameTaken .office).stageClear.1.answer .office (some 21) (s.frameTaken .office).stageClear.2) :=
  congrArg Host.Outcome.next (request_performed taken rfl () _)

end DropAndClear

/-- Settles O17: STAGE DROP's three outcomes, the record gone by `findKey_dropKey`; STAGE CLEAR's two, and STAGE CLEAR right
after a full reset, evaluated. -/
theorem stageDropAndClearEditTheStagedPlan : Obligations.StageDropAndClearEditTheStagedPlan := by
  refine ⟨fun s b taken => ?drop, fun s taken => ?clear⟩
  case drop =>
    rw [exec_stageDrop_taken b taken]
    have same := frameTaken_commitPending s .office
    have sameRecord : findKey b.toNat (s.frameTaken .office).staged.bays = findKey b.toNat s.staged.bays := by
      rw [frameTaken_staged]
    refine ⟨fun pending => ?pending, fun free absent => ?noSuchBay, fun free present => ?done⟩
    case pending => rw [stageDrop_pending (same.trans pending)]
    case noSuchBay => rw [stageDrop_noSuchBay (same.trans free) (sameRecord.trans absent)]
    case done =>
      rw [stageDrop_done (same.trans free) (sameRecord.symm ▸ present), frameTaken_staged]
      exact ⟨_, rfl, (findKey_dropKey _ _ _).trans (if_pos rfl),
        fun c other => (findKey_dropKey _ _ _).trans (if_neg other)⟩
  case clear =>
    rw [exec_stageClear_taken taken]
    have same := frameTaken_commitPending s .office
    refine ⟨fun pending => ?pending, fun free => ?done, rfl⟩
    case pending => rw [stageClear_pending (same.trans pending)]
    case done =>
      rw [stageClear_done (same.trans free), frameTaken_committed]
      rfl

end Sys2Proof.Machine
end

/-!
PROOFS. The 17 bytes of STATUS: what they report of a state, and that the frame which asks for them changes none of it
(10 R176, R199).
-/
namespace Sys2Proof.Machine

/-! ## The bytes of STATUS (R199, 11.5) -/

theorem byteOf_flagBit_zero (flag : Bool) : byteOf (flagBit 0 flag) = if flag then 1 else 0 := by
  cases flag <;> rfl

theorem statusBytes_eq (s : State) (p : Port) :
    s.statusBytes p =
      [byteOf s.mode.code, byteOf s.shed.code, byteOf s.silence.code] ++ be2 s.generation ++
      [if s.commitPending then 1 else 0, byteOf s.slotHolders, byteOf s.queue.length, byteOf s.claims.length,
       if s.clock.isSome then 1 else 0] ++ be4 (s.clock.getD 0) ++
      [byteOf (s.port p).queue.length, if (s.port p).overflow then 1 else 0, if (s.port p).attn then 1 else 0] := by
  simp only [State.statusBytes, byteOf_flagBit_zero]

/-- STATUS does not report the silence timer, the one field that a frame taken may change (R176). -/
@[simp] theorem frameTaken_statusBytes (s : State) (p q : Port) :
    (s.frameTaken p).statusBytes q = s.statusBytes q := by
  obtain ⟨_, changed⟩ := frameTaken_eq_with_timer s p
  rw [changed]
  rfl

/-! ## STATUS (R199) -/

/-- STATUS is permitted on every port and leaves the state as the frame taken left it. -/
theorem exec_status_taken {s : State} {p : Port} (taken : s.Takes p) :
    exec (.status p []) s = .next ((s.frameTaken p).answer p (some 25) ⟨.done, (s.frameTaken p).statusBytes p⟩) :=
  have permitted : requestPermitted .status p = true := by cases p <;> rfl
  congrArg Host.Outcome.next (request_performed taken permitted () _)

/-- Settles O12: the bytes are those of the state after the frame was taken, which are those before it. -/
theorem statusReturnsThePartWideState : Obligations.StatusReturnsThePartWideState := by
  intro s p taken
  rw [exec_status_taken taken, frameTaken_statusBytes, statusBytes_eq]

end Sys2Proof.Machine
